-- ==== Sys2Proof/Word.lean ====
section
/-! DEFINITION. Word.lean: the word of the register window and the names of the plain numbers of the manual. -/

namespace Sys2Proof

/-- A word, the unit of every register access (Table 0-2): 16 bits. -/
abbrev Word := BitVec 16

/-- A link sequence number, 0 to 15, 15 followed by 0 (R101). -/
abbrev Seq := BitVec 4

/-- A logical block address (R1). -/
abbrev Lba := Nat

/-- A physical block address (R1). -/
abbrev Pba := Nat

/-- A command slot number, 0 to 7 (R59). -/
abbrev Tag := Nat

/-- A Staging Buffer slot number, 0 to 63 (R27). -/
abbrev SlotIx := Nat

end Sys2Proof
end

