-- ==== Sys2Proof/Config.lean ====
section
/-! DEFINITION. Config.lean: the fixed sizes of the part, the table image and the one thing about it the manual does not give. -/

namespace Sys2Proof

/-- The two table copies (R1). -/
inductive Copy where
  | a
  | b
deriving DecidableEq, Repr

/-- Origin of a remap entry and of a repair (R4, R6). -/
inductive Origin where
  | writeFault
  | correctedRead
  | software
deriving DecidableEq, Repr

/-- Cause of a suspect entry (R13). -/
inductive Cause where
  | host
  | patrol
  | writeFailed
  | reread
deriving DecidableEq, Repr

/-- State of a spare (Table 1-3). -/
inductive SpareState where
  | free
  | reserved
  | mapped
  | retired
deriving DecidableEq, Repr

/-- A remap entry (R4). -/
structure RemapEntry where
  lba : Lba
  spare : Nat
  origin : Origin
deriving DecidableEq, Repr

/-- A suspect entry (R13). -/
structure Suspect where
  lba : Lba
  cause : Cause
deriving DecidableEq, Repr

/-- The content of a table image (R166). The check code is the one computed over this content: an image that is read
back in eight blocks of one image passes it, and nothing else does (log 7). -/
structure Image where
  p : Nat
  s : Nat
  l : Nat
  gen : Nat
  remap : List RemapEntry
  spares : List SpareState
  suspects : List Suspect
deriving DecidableEq, Repr

namespace Config

/-- Slots of the Staging Buffer (R27). -/
abbrev slotCount : Nat := 64
/-- Words of a block (R27). -/
abbrev blockWords : Nat := 256
/-- Tags (R59). -/
abbrev tagCount : Nat := 8
/-- PIN_LIMIT (R35, R46). -/
abbrev pinLimit : Nat := 8
/-- Places of the report queue (R78). -/
abbrev reportPlaces : Nat := 32
/-- Places of the repair queue (R133). -/
abbrev repairPlaces : Nat := 8
/-- A RELOCATE entry is admitted while the queue holds this many entries or fewer, so that two places are free
(R136, R137). -/
abbrev relocateRoom : Nat := 6
/-- Places of the suspect list (R13). -/
abbrev suspectPlaces : Nat := 32
/-- Blocks of a table copy (R1). -/
abbrev copyBlocks : Nat := 8
/-- The last generation, FFFFFFFFh (R174). -/
abbrev lastGeneration : Nat := 0xFFFFFFFF
/-- The smallest capacity worked with (R176). -/
abbrev minCapacity : Nat := 8192
/-- The largest capacity worked with (R176). -/
abbrev maxCapacity : Nat := 268435456
/-- The block size in bytes (R176). -/
abbrev blockBytes : Nat := 512
/-- How many blocks the patrol walk may take in one event before it pauses (log 15). -/
abbrev patrolChain : Nat := 64
/-- How many internal steps one event may hold (log 29). -/
abbrev eventSteps : Nat := 512

/-- FREE VALUE (log 7): word w of block k of a table image on the medium, whose byte layout the manual does not give
(R166). No proof can see what it is. -/
opaque imageWord : Image → Nat → Nat → Word

end Config

end Sys2Proof
end

