-- ==== Sys2Proof/Syntax.lean ====
section
/-! DEFINITION. Syntax.lean: the commands of the part, one constructor of Instr for each row of spec/opcode_table.json. -/

namespace Sys2Proof

/-- A data port (R84). -/
inductive PortId where
  | p0
  | p1
deriving DecidableEq, Repr

/-- The opcodes 1 to 8 (section 3.1). -/
inductive Opcode where
  | read
  | write
  | verify
  | flush
  | relocate
  | releasePinned
  | clearSuspect
  | prepare
deriving DecidableEq, Repr

/-- The four registers of the patrol window (R155). -/
inductive WindowReg where
  | startL
  | startH
  | endL
  | endH
deriving DecidableEq, Repr

/-- The two registers that select a table view entry (R193). -/
inductive ViewReg where
  | sel
  | idx
deriving DecidableEq, Repr

/-- The three values wider than a word (R186). -/
inductive WideReg where
  | cap
  | gen
  | pos
deriving DecidableEq, Repr

/-- The content of one block on the link: 256 words, or block k of a table image, named by its content because the
byte layout of an image is not given (R166, log 7). -/
inductive BlockData where
  | words (w : List Word)
  | table (img : Image) (k : Nat)
deriving DecidableEq, Repr

/-- The outcome of a response frame with the fields it brings (Table 5-1). -/
inductive Body where
  /-- GOOD of a READ: a level and a block. -/
  | goodRead (level : Nat) (data : BlockData)
  /-- GOOD of a VERIFY: a level. -/
  | goodVerify (level : Nat)
  /-- GOOD of a WRITE. -/
  | goodWrite
  /-- GOOD of an IDENTIFY: capacity and block size. -/
  | goodIdentify (capacity : Nat) (blockSize : Nat)
  | unrecovered
  | writeFault
  | unitFault
deriving DecidableEq, Repr

/-- A response frame (R100). -/
structure Response where
  seq : Seq
  body : Body
deriving DecidableEq, Repr

/-- The commands: one constructor per row of spec/opcode_table.json. -/
inductive Instr where
  /-- POWER_ON (R184). -/
  | powerOn
  /-- RESET_LINE_ASSERT (R54, R184). -/
  | resetLineAssert
  /-- RESET_LINE_RELEASE (R184). -/
  | resetLineRelease
  /-- READ (R64): a write of 1 to COMMAND. -/
  | read
  /-- WRITE (R66): a write of 2 to COMMAND. -/
  | write
  /-- VERIFY (R68): a write of 3 to COMMAND. -/
  | verify
  /-- FLUSH (R69): a write of 4 to COMMAND. -/
  | flush
  /-- RELOCATE (R70): a write of 5 to COMMAND. -/
  | relocate
  /-- RELEASE_PINNED (R71): a write of 6 to COMMAND. -/
  | releasePinned
  /-- CLEAR_SUSPECT (R71, R19): a write of 7 to COMMAND. -/
  | clearSuspect
  /-- PREPARE (R72, R179): a write of 8 to COMMAND. -/
  | prepare
  /-- BAD_OPCODE (R57): a write of COMMAND with the value v, outside 1 to 8. -/
  | badOpcode (v : Word)
  /-- ABORT (R73): a write of v to ABORT. -/
  | abort (v : Word)
  /-- REPORT_POP (R81): a write of v to REPORT_CTRL. -/
  | reportPop (v : Word)
  /-- DATA_READ (R90): a read of the port's DATA. -/
  | dataRead (p : PortId)
  /-- DATA_WRITE (R91): a write of v to the port's DATA. -/
  | dataWrite (p : PortId) (v : Word)
  /-- STAT_WRITE (R191): a write of v to the port's STAT. -/
  | statWrite (p : PortId) (v : Word)
  /-- STATUS_WRITE (R188): a write of v to STATUS. -/
  | statusWrite (v : Word)
  /-- LOST_BLOCKS_WRITE (R55): a write of v to LOST_BLOCKS. -/
  | lostBlocksWrite (v : Word)
  /-- GATE_REOPEN (R127): a write of v to CONTROL with bit 7 set. -/
  | gateReopen (v : Word)
  /-- PATROL_ENABLE (R157): a write of v to CONTROL with bit 1 set. -/
  | patrolEnable (v : Word)
  /-- PATROL_DISABLE (R164): a write of v to CONTROL with bit 1 clear. -/
  | patrolDisable (v : Word)
  /-- SOFT_RESET (R181): a write of v to CONTROL with bit 5 set. -/
  | softReset (v : Word)
  /-- DISCARD (R53): a write of v to CONTROL with bit 6 set. -/
  | discard (v : Word)
  /-- MEDIA_CFG_WRITE (R117). -/
  | mediaCfgWrite (v : Word)
  /-- GATE_CFG_WRITE (R128). -/
  | gateCfgWrite (v : Word)
  /-- STAGE_CFG_WRITE (R44). -/
  | stageCfgWrite (v : Word)
  /-- PATROL_CFG_WRITE (R155). -/
  | patrolCfgWrite (v : Word)
  /-- PATROL_WINDOW_WRITE (R155). -/
  | patrolWindowWrite (r : WindowReg) (v : Word)
  /-- TABLE_VIEW_SELECT (R23). -/
  | tableViewSelect (r : ViewReg) (v : Word)
  /-- TABLE_D0_READ (R23). -/
  | tableD0Read
  /-- WIDE_LOW_READ (R186): a read of CAP_L, GEN_L or PPOS_L. -/
  | wideLowRead (r : WideReg)
  /-- REGISTER_WRITE (R185): a write of v at the word address A[6:1]. -/
  | registerWrite (a : BitVec 6) (v : Word)
  /-- RESPONSE_FRAME (R100). -/
  | responseFrame (f : Response)
  /-- OP_TIMER_EXPIRY (R102). -/
  | opTimerExpiry
  /-- IDENTIFY_RETRY_EXPIRY (R103). -/
  | identifyRetryExpiry
  /-- FAULT_LINE_ASSERT (R122). -/
  | faultLineAssert
  /-- FAULT_LINE_RELEASE (R122). -/
  | faultLineRelease
  /-- FILTER_WIDTH_EXPIRY (R122). -/
  | filterWidthExpiry
  /-- HOLD_TIMER_EXPIRY (R126). -/
  | holdTimerExpiry
  /-- COMMIT_RETRY_EXPIRY (R173). -/
  | commitRetryExpiry
  /-- PATROL_INTERVAL_EXPIRY (R160). -/
  | patrolIntervalExpiry
  /-- OP_ISSUE (R108). -/
  | opIssue
  /-- COMMIT_START (R170). -/
  | commitStart
  /-- QUIESCE_END (R182). -/
  | quiesceEnd
  /-- SLOT_ALLOCATION (R33). -/
  | slotAllocation
  /-- PORT_BINDING (R86). -/
  | portBinding
  /-- DESTAGE_OFFER (R43). -/
  | destageOffer
  /-- WRITE_THROUGH_JOB_CREATE (R38). -/
  | writeThroughJobCreate
  /-- COMMAND_START (R63). -/
  | commandStart
  /-- REPAIR_ACTIVATION (R134). -/
  | repairActivation
  /-- ADMISSION_WAIT_SERVE (R137). -/
  | admissionWaitServe
  /-- PATROL_RESUME (R161). -/
  | patrolResume
  /-- FLUSH_COMPLETE (R50). -/
  | flushComplete
deriving DecidableEq, Repr

end Sys2Proof
end

