-- ==== Sys2Proof/Machine/State.lean ====
section
/-! DEFINITION. Machine/State.lean: everything the manual gives the VT-416 as plain data, one structure per block, and
the state at the end of the power-on event. -/

namespace Sys2Proof.Machine

open Sys2Proof

/-- Faults of the machine: none. No rule of the manual stops the part (INVENTORY.md, Faults). -/
inductive Fault where
deriving DecidableEq, Repr

/-- Refusals of the model. -/
inductive Refusal where
  /-- Raised by exec alone, for a command that has no meaning yet; it stops the run, so it is safe. No arm raises it. -/
  | notModelled (mnemonic : String)
deriving DecidableEq, Repr

/-! ## Command Unit -/

/-- Port select of a READ or WRITE (section 3.1). -/
inductive PortSel where
  | p0
  | p1
  | any
deriving DecidableEq, Repr

/-- Tag states (Table 3-3). -/
inductive TagState where
  | free
  | queued
  | active
  | aborting
  | reported
deriving DecidableEq, Repr

/-- Completion statuses (Table 3-6). -/
inductive Status where
  | good
  | aborted
  | readFailed
  | writeFailed
  | verifyFailed
  | mediaUnavailable
  | pinnedPresent
  | notPinned
  | notSuspect
  | noSpare
  | rereadFailed
  | tableWriteFailed
deriving DecidableEq, Repr

/-- Reasons of a refused submission (Table 3-2). -/
inductive Reason where
  | badOpcode
  | notReady
  | busy
  | badParameter
  | queueFull
deriving DecidableEq, Repr

/-- SUBMIT (R56). -/
inductive Submit where
  | none
  | accepted (tag : Tag)
  | refused (why : Reason)
deriving DecidableEq, Repr

/-- A tag record (R59). A field that Table R59 calls absent holds 0, no, or none. -/
structure TagRec where
  st : TagState
  op : Option Opcode
  lba : Lba
  count : Nat
  portSel : PortSel
  through : Bool
  done : Nat
  failure : Option (Status × Lba)
  /-- Implied (log 28): blocks a READ has looked up (R92) or a VERIFY has reached (R68). -/
  looked : Nat
  /-- Implied (log 28): block index and slot of each claim a READ holds (R31). -/
  claims : List (Nat × SlotIx)
deriving DecidableEq, Repr

/-- The record of a FREE tag (R59, R82). -/
def TagRec.empty : TagRec :=
  { st := .free, op := none, lba := 0, count := 0, portSel := .p0, through := false, done := 0, failure := none,
    looked := 0, claims := [] }

/-- Command Unit (chapter 3). -/
structure Cmd where
  lbaL : Word
  lbaH : Word
  count : Word
  flags : Word
  command : Word
  submit : Submit
  tags : List TagRec
  order : List Tag
  abortRefused : Bool
deriving DecidableEq, Repr

/-! ## Report Queue -/

/-- Cause of a trip (section 6.2). -/
inductive TripCause where
  | faultLine
  | unitFault
  | timeout
deriving DecidableEq, Repr

/-- Who reopened the gate (Table 3-5). -/
inductive ReopenBy where
  | auto
  | software
deriving DecidableEq, Repr

/-- How a suspect entry was cleared (Table 3-5). -/
inductive ClearedBy where
  | readGood
  | writeVerified
deriving DecidableEq, Repr

/-- Reason of RELOCATE_FAILED (R149). -/
inductive RelocFail where
  | noSpare
  | rereadFailed
deriving DecidableEq, Repr

/-- Verdict of LOAD_RESULT (Table 9-2). -/
inductive Verdict where
  | both
  | oneCopy
  | none
  | sizeMismatch
deriving DecidableEq, Repr

/-- The notices (Table 3-5), in the order of their codes 1 to 15. -/
inductive Notice where
  | trip (cause : TripCause)
  | gateLatched (count : Nat)
  | gateReopened (who : ReopenBy)
  | suspectAdded (lba : Lba) (cause : Cause)
  | suspectCleared (lba : Lba) (how : ClearedBy)
  | suspectFull (lba : Lba)
  | remapped (lba : Lba) (spare : Nat) (origin : Origin)
  | relocateFailed (lba : Lba) (why : RelocFail)
  | relocateDropped (lba : Lba)
  | pinned (lba : Lba)
  | spareLow (count : Nat)
  | tableCommitted (gen : Nat) (copy : Copy)
  | tableCommitFailed (copy : Copy)
  | patrolPassDone (lba : Lba)
  | loadResult (verdict : Verdict) (copy : Copy) (gen : Nat)
deriving DecidableEq, Repr

/-- A report record (R78). -/
inductive Report where
  | completion (tag : Tag) (status : Status) (done : Nat) (lba : Lba)
  | notice (n : Notice)
deriving DecidableEq, Repr

/-- Report Queue (section 3.6). -/
structure Rep where
  recs : List Report
  noticeLost : Bool
deriving DecidableEq, Repr

/-! ## Bus Interface and Data Ports -/

/-- Bus Interface (chapter 10): the pins it reads and drives, CONTROL's stored bits, and the latches of R186. -/
structure Bus where
  /-- RESET_N is asserted. -/
  resetLow : Bool
  /-- The value driven on D[15:0] by the last read; absent when there was none since the reset (R185; log 8). -/
  readout : Option Word
  stageEn : Bool
  patrolCont : Bool
  reportIe : Bool
  portIe : Bool
  discard : Bool
  capLatch : Nat
  genLatch : Nat
  posLatch : Nat
deriving DecidableEq, Repr

/-- Direction of a bound port (R84). -/
inductive Dir where
  | read
  | write
deriving DecidableEq, Repr

/-- What a bound port holds (R84). -/
structure Binding where
  tag : Tag
  dir : Dir
  block : Nat
  word : Nat
deriving DecidableEq, Repr

/-- A port record (R84): UNBOUND while it has no binding. State READY or WAIT and attention follow the other blocks
(R88, R89, R96) and are computed. -/
structure Port where
  bound : Option Binding
  empty : Bool
deriving DecidableEq, Repr

/-- Data Ports (chapter 4). -/
structure Ports where
  p0 : Port
  p1 : Port
  wait : List Tag
deriving DecidableEq, Repr

/-! ## Staging Buffer -/

/-- Slot states (Table 2-1). -/
inductive SlotState where
  | free
  | filling
  | loading
  | clean
  | dirty
  | writing
  | pinned
deriving DecidableEq, Repr

/-- Owner of a slot (R27). -/
inductive SlotOwner where
  | tag (t : Tag)
  | repair
deriving DecidableEq, Repr

/-- A slot with its record and words (R27). A FILLING slot holds the words received so far, a LOADING slot none until
its response has come, a FREE slot none (log 20). -/
structure Slot where
  st : SlotState
  lba : Option Lba
  superseded : Bool
  claims : Nat
  owner : Option SlotOwner
  data : List Word
deriving DecidableEq, Repr

/-- A FREE slot (R27). -/
def Slot.empty : Slot :=
  { st := .free, lba := none, superseded := false, claims := 0, owner := none, data := [] }

/-- Kind of an allocator request (R32). -/
inductive AllocKind where
  | load
  | fill
deriving DecidableEq, Repr

/-- A request of the slot allocator (R32); the block index is implied (log 28). -/
structure AllocReq where
  tag : Tag
  kind : AllocKind
  lba : Lba
  block : Nat
deriving DecidableEq, Repr

/-- The flush set of one FLUSH (R49), with whether a pinned slot counts against it (R50). -/
structure FlushSet where
  tag : Tag
  slots : List SlotIx
  pinned : Bool
deriving DecidableEq, Repr

/-- Staging Buffer (chapter 2). -/
structure Buf where
  slots : List Slot
  destage : List SlotIx
  clean : List SlotIx
  allocQ : List AllocReq
  flush : List FlushSet
  highWater : Nat
  lost : Nat
deriving DecidableEq, Repr

/-! ## Translation Unit -/

/-- The view latch: TABLE_D0 to TABLE_D3 (R23). -/
structure TableView where
  d0 : Word
  d1 : Word
  d2 : Word
  d3 : Word
deriving DecidableEq, Repr

/-- An entry with VALID = 0 (R23). -/
def TableView.blank : TableView := { d0 := 0, d1 := 0, d2 := 0, d3 := 0 }

/-- Translation Unit (chapter 1). -/
structure Trans where
  /-- S. -/
  spareCount : Nat
  /-- L. -/
  blocks : Nat
  remap : List RemapEntry
  spares : List SpareState
  suspects : List Suspect
  /-- SPARE_LOW arming (R11). -/
  armed : Bool
  /-- STAGE_CFG.SPARE_LOW (R11). -/
  spareLow : Nat
  tableSel : BitVec 2
  tableIdx : BitVec 8
  view : TableView
deriving DecidableEq, Repr

/-! ## Repair Unit -/

/-- Kind of a repair (R133). -/
inductive RepairKind where
  | relocate
  | remapWrite
deriving DecidableEq, Repr

/-- A repair-queue entry (R133). wtFormer is the model's own (log 13): the WRITE whose attachment a latch has removed (R138)
although it did not fail the WRITE (R129), which is still owed the block (R66). -/
structure RepairEntry where
  kind : RepairKind
  lba : Lba
  origin : Origin
  slot : Option SlotIx
  relTag : Option Tag
  wtTag : Option Tag
  wtFormer : Option Tag := none
deriving DecidableEq, Repr

/-- Steps of the active repair (R134). -/
inductive RepairStep where
  | waitWrite
  | read
  | spareWrite
  | spareVerify
  | commitWait
deriving DecidableEq, Repr

/-- A data place of a job or a repair (Table 5-2, R134). -/
inductive Place where
  | slot (i : SlotIx)
  | repairBuf
  | image (k : Nat)
deriving DecidableEq, Repr

/-- The active-repair record (R134); covered is implied (R146, log 28): the commit now running took its snapshot after
this repair's table update. -/
structure ActiveRepair where
  step : RepairStep
  spare : Option Nat
  place : Option Place
  covered : Bool
deriving DecidableEq, Repr

/-- Repair Unit (chapter 7). -/
structure Rpr where
  queue : List RepairEntry
  active : Option ActiveRepair
  buf : List Word
  wait : List Tag
deriving DecidableEq, Repr

/-! ## Media Engine -/

/-- Job classes (Table 5-3). A destage job is kept under destage; whether it stands as URGENT is read from R44 at each
choice (R105). -/
inductive JobClass where
  | table
  | host
  | destage
  | repair
  | patrol
deriving DecidableEq, Repr

/-- Owner of a job (Table 5-2). -/
inductive JobOwner where
  | tag (t : Tag)
  | staging
  | repair
  | patrol
  | store
deriving DecidableEq, Repr

/-- Kind of a job (Table 5-2). -/
inductive JobKind where
  | read
  | verify
  | write
deriving DecidableEq, Repr

/-- Target of a job (Table 5-2). -/
inductive Target where
  | lba (n : Lba)
  | pba (p : Pba)
deriving DecidableEq, Repr

/-- Phase of a write job (Table 5-2). -/
inductive Phase where
  | write
  | verify
deriving DecidableEq, Repr

/-- A job record (R104). WAITING or ON_LINK is where the job is held: in a list of its class or in the outstanding-op
record. -/
structure Job where
  cls : JobClass
  owner : JobOwner
  kind : JobKind
  target : Target
  place : Option Place
  attempts : Nat
  verifyDecision : Option Bool
  phase : Phase
deriving DecidableEq, Repr

/-- Ops of the link (R98). -/
inductive LinkOp where
  | read
  | verify
  | write
  | identify
deriving DecidableEq, Repr

/-- What becomes of an op that has lost its owner (R116). -/
inductive Orphan where
  /-- The VERIFY of an aborted VERIFY command, a withdrawn load, or a patrol VERIFY detached by a PREPARE. -/
  | applyNothing
  /-- A patrol VERIFY on the link at the entry to QUIESCE (R165). -/
  | patrolQuiesce
deriving DecidableEq, Repr

/-- The outstanding-op record (R98): sequence number, op and job; IDENTIFY has no job. -/
structure Outstanding where
  seq : Seq
  op : LinkOp
  job : Option Job
  orphan : Option Orphan
deriving DecidableEq, Repr

/-- An operation frame (R99). -/
structure Frame where
  seq : Seq
  op : LinkOp
  pba : Pba
  data : Option BlockData
deriving DecidableEq, Repr

/-- Media Engine (chapter 5). -/
structure Media where
  link : Option Outstanding
  /-- The frame last sent on ML_TX. -/
  tx : Option Frame
  seq : Seq
  /-- The op timer: the length in ms it runs with (R102). -/
  opTimer : Option Nat
  /-- The IDENTIFY retry timer runs (R103). -/
  identTimer : Bool
  /-- P (R103). -/
  cap : Option Nat
  tableQ : List Job
  hostQ : List Job
  destageQ : List Job
  repairQ : List Job
  patrolQ : List Job
  readRetries : Nat
  relocLevel : Nat
  /-- OP_TIMEOUT as its code, in steps of 10 ms. -/
  opTimeout : Nat
deriving DecidableEq, Repr

/-! ## Fault Gate -/

/-- Gate states (Table 6-1). -/
inductive GateState where
  | opened
  | hold
  | waitClear
  | latched
deriving DecidableEq, Repr

/-- GATE_CFG.MODE (R128). -/
inductive GateMode where
  | auto
  | latched
deriving DecidableEq, Repr

/-- GATE_CFG.FILTER (R122). -/
inductive FilterWidth where
  | off
  | us4
  | us16
  | us64
deriving DecidableEq, Repr

/-- GATE_CFG.HOLD (R126). -/
inductive HoldLen where
  | ms1
  | ms4
  | ms16
  | ms64
deriving DecidableEq, Repr

/-- Fault-line filter (R122). -/
inductive FilterState where
  | idle
  | measuring (w : FilterWidth)
  | asserted
deriving DecidableEq, Repr

/-- Fault Gate (chapter 6). -/
structure Gate where
  st : GateState
  trips : Nat
  filter : FilterState
  /-- UNIT_FAULT_N is asserted. -/
  line : Bool
  /-- The hold timer: the length it runs with (R126). -/
  holdTimer : Option HoldLen
  mode : GateMode
  filterCfg : FilterWidth
  holdCfg : HoldLen
  tripLimit : Nat
  refused : Bool
deriving DecidableEq, Repr

/-! ## Patrol Unit -/

/-- Patrol states (Table 8-1). -/
inductive PatrolState where
  | off
  | pending
  | running
  | suspended
  | interval
deriving DecidableEq, Repr

/-- Patrol Unit (chapter 8). -/
structure Patrol where
  startL : Word
  startH : BitVec 12
  endL : Word
  endH : BitVec 12
  pos : Nat
  st : PatrolState
  burstLeft : Nat
  /-- Implied (R156, R164, log 28): the RUNNING block finishes after a disable. -/
  finishing : Bool
  /-- The recorded restart (R164). -/
  restart : Bool
  /-- The interval timer: the length in ms it runs with (R160). -/
  timer : Option Nat
  burst : Nat
  interval : Nat
  badWindow : Bool
deriving DecidableEq, Repr

/-! ## Table Store -/

/-- Run states (Table 9-1). -/
inductive RunState where
  | starting
  | unitRejected
  | loading
  | unprepared
  | ready
  | quiesce
deriving DecidableEq, Repr

/-- Status of a table copy (R168). -/
inductive CopyStatus where
  | valid (gen : Nat)
  | invalid
  | inWrite
deriving DecidableEq, Repr

/-- A running commit (R170, R171). -/
structure Commit where
  target : Copy
  gen : Nat
  block : Nat
deriving DecidableEq, Repr

/-- A PREPARE in flight (R180): the copy being written, its block, and whether copy A became VALID. -/
structure Prep where
  copy : Copy
  block : Nat
  aValid : Bool
deriving DecidableEq, Repr

/-- A start-up load under way (R177): where it reads, the candidate of copy A, and whether copy A was a size mismatch. -/
structure Load where
  copy : Copy
  block : Nat
  candidate : Option Image
  mismatch : Bool
deriving DecidableEq, Repr

/-- Table Store (chapter 9). -/
structure Store where
  run : RunState
  /-- Return state of a quiesce (R181). -/
  ret : Option RunState
  copyA : CopyStatus
  copyB : CopyStatus
  /-- TABLE_DIRTY. -/
  dirty : Bool
  /-- TABLE_AT_RISK. -/
  atRisk : Bool
  commit : Option Commit
  prep : Option Prep
  load : Option Load
  /-- The table staging image: the blocks it holds (R166). -/
  staging : List BlockData
  /-- The commit retry timer runs (R173). -/
  retryTimer : Bool
  /-- DISCARD has taken effect in this quiesce (R170). -/
  discarded : Bool
deriving DecidableEq, Repr

/-! ## The whole part -/

/-- The VT-416, and the queue of commands that wait, first in, first out. -/
structure State where
  bus : Bus
  cmd : Cmd
  rep : Rep
  ports : Ports
  buf : Buf
  trans : Trans
  rpr : Rpr
  media : Media
  gate : Gate
  patrol : Patrol
  store : Store
  pending : List Instr
deriving DecidableEq, Repr

/-- Every block at its reset value with RESET_N held asserted (R184, R195): no frame sent yet, sequence counter 0,
timers stopped. -/
def State.inReset : State :=
  { bus := { resetLow := true, readout := none, stageEn := false, patrolCont := false, reportIe := false,
             portIe := false, discard := false, capLatch := 0, genLatch := 0, posLatch := 0 }
    cmd := { lbaL := 0, lbaH := 0, count := 0, flags := 0, command := 0, submit := .none,
             tags := List.replicate Config.tagCount TagRec.empty, order := [], abortRefused := false }
    rep := { recs := [], noticeLost := false }
    ports := { p0 := { bound := none, empty := false }, p1 := { bound := none, empty := false }, wait := [] }
    buf := { slots := List.replicate Config.slotCount Slot.empty, destage := [], clean := [], allocQ := [],
             flush := [], highWater := 48, lost := 0 }
    trans := { spareCount := 0, blocks := 0, remap := [], spares := [], suspects := [], armed := false,
               spareLow := 8, tableSel := 0, tableIdx := 0, view := TableView.blank }
    rpr := { queue := [], active := none, buf := [], wait := [] }
    media := { link := none, tx := none, seq := 0, opTimer := none, identTimer := false, cap := none, tableQ := [],
               hostQ := [], destageQ := [], repairQ := [], patrolQ := [], readRetries := 3, relocLevel := 5,
               opTimeout := 5 }
    gate := { st := .opened, trips := 0, filter := .idle, line := false, holdTimer := none, mode := .auto,
              filterCfg := .us16, holdCfg := .ms4, tripLimit := 4, refused := false }
    patrol := { startL := 0, startH := 0, endL := 0, endH := 0, pos := 0, st := .off, burstLeft := 0,
                finishing := false, restart := false, timer := none, burst := 8, interval := 10,
                badWindow := false }
    store := { run := .starting, ret := none, copyA := .invalid, copyB := .invalid, dirty := false,
               atRisk := false, commit := none, prep := none, load := none, staging := [], retryTimer := false,
               discarded := false }
    pending := [] }

/-- The part right after the power-on event (R184): every block at its reset value, RESET_N and UNIT_FAULT_N released,
STARTING entered and the first IDENTIFY sent with sequence number 0 (R103; log 6). -/
def State.reset : State :=
  { State.inReset with
    bus := { State.inReset.bus with resetLow := false }
    media := { State.inReset.media with
               link := some { seq := 0, op := .identify, job := none, orphan := none }
               tx := some { seq := 0, op := .identify, pba := 0, data := none }
               seq := 1
               identTimer := true } }

end Sys2Proof.Machine
end

