-- ==== Sys2Proof/Machine/Operands.lean ====
section
/-! DEFINITION. Machine/Operands.lean: fields of the register words, and the values taken for codes out of range
(chapter 10). -/

namespace Sys2Proof.Machine

open Sys2Proof

/-- n bits of w from bit lo up. -/
def fieldOf (w : Word) (lo n : Nat) : Nat := (w.toNat / 2 ^ lo) % 2 ^ n

/-- Bit i of w. -/
def bitOf (w : Word) (i : Nat) : Bool := fieldOf w i 1 == 1

/-- A word from values and the bit each starts at. -/
def packWord (l : List (Nat × Nat)) : Word :=
  BitVec.ofNat 16 (l.foldr (fun p a => p.1 * 2 ^ p.2 + a) 0)

/-- Bits 15:0 of a wide value. -/
def lowWord (n : Nat) : Word := BitVec.ofNat 16 n

/-- Bits 31:16 of a wide value. -/
def highWord (n : Nat) : Word := BitVec.ofNat 16 (n / 65536)

/-- The nearest value of a range (R192). -/
def clampTo (lo hi v : Nat) : Nat := max lo (min hi v)

/-- 0 and 1 of a flag. -/
def flagNat (b : Bool) : Nat := if b then 1 else 0

/-- GATE_CFG.MODE (Table 10-9). -/
def modeOf (n : Nat) : GateMode := if n = 1 then .latched else .auto

def modeCode : GateMode → Nat
  | .auto => 0
  | .latched => 1

/-- GATE_CFG.FILTER (Table 10-9). -/
def filterOf : Nat → FilterWidth
  | 0 => .off
  | 1 => .us4
  | 2 => .us16
  | _ => .us64

def filterCode : FilterWidth → Nat
  | .off => 0
  | .us4 => 1
  | .us16 => 2
  | .us64 => 3

/-- GATE_CFG.HOLD (Table 10-9). -/
def holdOf : Nat → HoldLen
  | 0 => .ms1
  | 1 => .ms4
  | 2 => .ms16
  | _ => .ms64

def holdCode : HoldLen → Nat
  | .ms1 => 0
  | .ms4 => 1
  | .ms16 => 2
  | .ms64 => 3

/-- RUN_STATE (Table 10-3). -/
def runCode : RunState → Nat
  | .starting => 0
  | .unitRejected => 1
  | .loading => 2
  | .unprepared => 3
  | .ready => 4
  | .quiesce => 5

/-- GATE_STATE (Table 10-3). -/
def gateCode : GateState → Nat
  | .opened => 0
  | .hold => 1
  | .waitClear => 2
  | .latched => 3

/-- Reasons (Table 10-4). -/
def reasonCode : Reason → Nat
  | .badOpcode => 1
  | .notReady => 2
  | .busy => 3
  | .badParameter => 4
  | .queueFull => 5

/-- Status codes (Table 10-6). -/
def statusCode : Status → Nat
  | .good => 0
  | .aborted => 1
  | .readFailed => 2
  | .writeFailed => 3
  | .verifyFailed => 4
  | .mediaUnavailable => 5
  | .pinnedPresent => 6
  | .notPinned => 7
  | .notSuspect => 8
  | .noSpare => 9
  | .rereadFailed => 10
  | .tableWriteFailed => 11

/-- Causes of a suspect entry (Tables 10-7 and 10-10). -/
def causeCode : Cause → Nat
  | .host => 0
  | .patrol => 1
  | .writeFailed => 2
  | .reread => 3

/-- Origins (Tables 10-7 and 10-10). -/
def originCode : Origin → Nat
  | .writeFault => 0
  | .correctedRead => 1
  | .software => 2

/-- Spare states (Table 10-10). -/
def spareCode : SpareState → Nat
  | .free => 0
  | .reserved => 1
  | .mapped => 2
  | .retired => 3

/-- Copies (Table 10-5). -/
def copyCode : Copy → Nat
  | .a => 0
  | .b => 1

/-- Verdicts (Table 10-5). -/
def verdictCode : Verdict → Nat
  | .both => 0
  | .oneCopy => 1
  | .none => 2
  | .sizeMismatch => 3

/-- Causes of a trip (Table 10-7). -/
def tripCode : TripCause → Nat
  | .faultLine => 0
  | .unitFault => 1
  | .timeout => 2

/-- Code of a notice (Table 3-5). -/
def Notice.code : Notice → Nat
  | .trip _ => 1
  | .gateLatched _ => 2
  | .gateReopened _ => 3
  | .suspectAdded _ _ => 4
  | .suspectCleared _ _ => 5
  | .suspectFull _ => 6
  | .remapped _ _ _ => 7
  | .relocateFailed _ _ => 8
  | .relocateDropped _ => 9
  | .pinned _ => 10
  | .spareLow _ => 11
  | .tableCommitted _ _ => 12
  | .tableCommitFailed _ => 13
  | .patrolPassDone _ => 14
  | .loadResult _ _ _ => 15

/-- LBA field of a notice (Table 3-5). -/
def Notice.lba : Notice → Lba
  | .trip _ => 0
  | .gateLatched _ => 0
  | .gateReopened _ => 0
  | .suspectAdded n _ => n
  | .suspectCleared n _ => n
  | .suspectFull n => n
  | .remapped n _ _ => n
  | .relocateFailed n _ => n
  | .relocateDropped n => n
  | .pinned n => n
  | .spareLow _ => 0
  | .tableCommitted _ _ => 0
  | .tableCommitFailed _ => 0
  | .patrolPassDone n => n
  | .loadResult _ _ _ => 0

/-- Aux word of a notice (Table 10-7). -/
def Notice.aux : Notice → Nat
  | .trip c => tripCode c
  | .gateLatched n => n
  | .gateReopened w => (match w with | .auto => 0 | .software => 1)
  | .suspectAdded _ c => causeCode c
  | .suspectCleared _ h => (match h with | .readGood => 0 | .writeVerified => 1)
  | .suspectFull _ => 0
  | .remapped _ r o => r % 256 + 256 * originCode o
  | .relocateFailed _ w => (match w with | .noSpare => 0 | .rereadFailed => 1)
  | .relocateDropped _ => 0
  | .pinned _ => 0
  | .spareLow n => n
  | .tableCommitted g _ => g % 65536
  | .tableCommitFailed _ => 0
  | .patrolPassDone _ => 0
  | .loadResult _ _ g => g % 65536

/-- Copy and verdict fields of REPORT_0 (Table 10-5). -/
def Notice.copyVerdict : Notice → Nat × Nat
  | .tableCommitted _ c => (copyCode c, 0)
  | .tableCommitFailed c => (copyCode c, 0)
  | .loadResult v c _ => (copyCode c, verdictCode v)
  | .trip _ | .gateLatched _ | .gateReopened _ | .suspectAdded _ _ | .suspectCleared _ _ | .suspectFull _ => (0, 0)
  | .remapped _ _ _ | .relocateFailed _ _ | .relocateDropped _ | .pinned _ | .spareLow _ => (0, 0)
  | .patrolPassDone _ => (0, 0)

/-- REPORT_0 (Table 10-5). -/
def Report.word0 : Report → Word
  | .completion t st _ _ => packWord [(1, 0), (t % 8, 2), (statusCode st, 8)]
  | .notice n => packWord [(2, 0), (n.code, 8), (n.copyVerdict.1, 12), (n.copyVerdict.2, 13)]

/-- REPORT_1 (Table 10-5). -/
def Report.word1 : Report → Word
  | .completion _ _ d _ => BitVec.ofNat 16 (d % 128)
  | .notice n => BitVec.ofNat 16 n.aux

/-- The LBA a record shows. -/
def Report.lba : Report → Lba
  | .completion _ _ _ n => n
  | .notice n => n.lba

/-- REPORT_2 (Table 10-5). -/
def Report.word2 (r : Report) : Word := lowWord r.lba

/-- REPORT_3 (Table 10-5): LBA bits 27:16 in bits 11:0. -/
def Report.word3 (r : Report) : Word := BitVec.ofNat 16 (r.lba / 65536 % 4096)

/-- SUBMIT (Table 10-4). -/
def Submit.word : Submit → Word
  | .none => 0
  | .accepted t => packWord [(1, 0), (t % 8, 2)]
  | .refused r => packWord [(2, 0), (reasonCode r, 8)]

/-- The words an opcode is written with (section 3.1). -/
def opcodeOf (w : Word) : Option Opcode :=
  match w.toNat with
  | 1 => some .read
  | 2 => some .write
  | 3 => some .verify
  | 4 => some .flush
  | 5 => some .relocate
  | 6 => some .releasePinned
  | 7 => some .clearSuspect
  | 8 => some .prepare
  | _ => none

/-- CMD_FLAGS port select (R189); 3 names no port. -/
def portSelOf (w : Word) : Option PortSel :=
  match fieldOf w 0 2 with
  | 0 => some .p0
  | 1 => some .p1
  | 2 => some .any
  | _ => none

/-- CMD_FLAGS.THROUGH (R189). -/
def throughOf (w : Word) : Bool := bitOf w 2

/-- The LBA of the command registers (R189). -/
def Cmd.lbaReg (c : Cmd) : Lba := c.lbaH.toNat * 65536 + c.lbaL.toNat

/-- START and END (R155). -/
def Patrol.first (p : Patrol) : Lba := p.startH.toNat * 65536 + p.startL.toNat

def Patrol.last (p : Patrol) : Lba := p.endH.toNat * 65536 + p.endL.toNat

/-- MEDIA_CFG as taken (Table 10-9). -/
def Media.withCfg (m : Media) (v : Word) : Media :=
  { m with readRetries := fieldOf v 0 3, relocLevel := clampTo 1 8 (fieldOf v 4 4),
           opTimeout := clampTo 1 25 (fieldOf v 8 5) }

def Media.cfgWord (m : Media) : Word := packWord [(m.readRetries, 0), (m.relocLevel, 4), (m.opTimeout, 8)]

/-- GATE_CFG as taken (Table 10-9). -/
def Gate.withCfg (g : Gate) (v : Word) : Gate :=
  { g with mode := modeOf (fieldOf v 0 1), filterCfg := filterOf (fieldOf v 1 2), holdCfg := holdOf (fieldOf v 3 2),
           tripLimit := clampTo 1 15 (fieldOf v 8 4) }

def Gate.cfgWord (g : Gate) : Word :=
  packWord [(modeCode g.mode, 0), (filterCode g.filterCfg, 1), (holdCode g.holdCfg, 3), (g.tripLimit, 8)]

/-- STAGE_CFG's two fields as taken (Table 10-9). -/
def highWaterOf (v : Word) : Nat := clampTo 8 56 (fieldOf v 0 6)

def spareLowOf (v : Word) : Nat := clampTo 0 64 (fieldOf v 8 7)

/-- PATROL_CFG as taken (Table 10-9). -/
def Patrol.withCfg (p : Patrol) (v : Word) : Patrol :=
  { p with burst := clampTo 1 16 (fieldOf v 0 5), interval := fieldOf v 8 8 }

def Patrol.cfgWord (p : Patrol) : Word := packWord [(p.burst, 0), (p.interval, 8)]

end Sys2Proof.Machine
end

