-- ==== Sys2Proof/Machine/Ops.lean ====
section
/-! DEFINITION. Machine/Ops.lean: the event, and the shared operations over slots, the directory, the report queue,
holds and job lists. -/

namespace Sys2Proof.Machine

open Sys2Proof

/-! ## Events -/

/-- A completion posted in the event under way, and the key that orders it among them (log 10). -/
structure Posted where
  key : Nat
  report : Report
deriving DecidableEq, Repr

/-- The part inside one event: its state, the completions the event has posted so far, the acceptance order at the
start of the event (R78), a lower bound for the key of a FLUSH completion (R148), and whether the patrol walk has
paused in this event (log 15). -/
structure Ev extends State where
  posted : List Posted
  order0 : List Tag
  flushKey : Nat
  paused : Bool

/-- An event begins. -/
def State.begin (s : State) : Ev :=
  { toState := s, posted := [], order0 := s.cmd.order, flushKey := 0, paused := false }

/-- An event ends: its completions join the report queue behind its notices (R78, R138; log 10). -/
def Ev.finish (e : Ev) : State :=
  { e.toState with rep.recs := e.rep.recs ++ e.posted.map (·.report) }

/-! ## Slots (R27 to R31) -/

/-- Slot i. -/
def Buf.slot (b : Buf) (i : SlotIx) : Slot := b.slots.getD i Slot.empty

/-- CLEAN with claim count 0: on the clean list (R30). -/
def Slot.onClean (x : Slot) : Bool := x.st == .clean && x.claims == 0

/-- DIRTY or WRITING: kept in flush sets and counted in BUF_COUNTS (R28, R50). -/
def Slot.inWork (x : Slot) : Bool := x.st == .dirty || x.st == .writing

/-- A slot joins a list at the tail when the condition of the list begins to hold of it, and leaves it when the
condition ceases (R29, R30). -/
def moveIn (was now : Bool) (i : SlotIx) (l : List SlotIx) : List SlotIx :=
  if was && !now then l.filter (· != i) else if !was && now then l ++ [i] else l

/-- A slot leaves a flush set; the set records a pinned slot (R50). -/
def FlushSet.leave (f : FlushSet) (i : SlotIx) (pin : Bool) : FlushSet :=
  if f.slots.contains i then { f with slots := f.slots.filter (· != i), pinned := f.pinned || pin } else f

/-- The one way a slot's record changes: the destage list, the clean list and the flush sets follow (R29, R30, R50). -/
def Buf.setSlot (b : Buf) (i : SlotIx) (x : Slot) : Buf :=
  if i < b.slots.length then
    { b with
      slots := b.slots.set i x
      destage := moveIn ((b.slot i).st == .dirty) (x.st == .dirty) i b.destage
      clean := moveIn (b.slot i).onClean x.onClean i b.clean
      flush := if (b.slot i).inWork && !x.inWork then b.flush.map (fun f => f.leave i (x.st == .pinned)) else b.flush }
  else b

def Ev.setSlot (e : Ev) (i : SlotIx) (x : Slot) : Ev := { e with buf := e.buf.setSlot i x }

/-- A slot becomes FREE (R27). -/
def Ev.freeSlot (e : Ev) (i : SlotIx) : Ev := e.setSlot i Slot.empty

/-- Current slot (R28). -/
def Slot.current (x : Slot) : Bool :=
  match x.st with
  | .loading | .clean | .dirty | .pinned => true
  | .writing => !x.superseded
  | .free | .filling => false

/-- The slot directory: the current slot of an LBA (R28). -/
def Buf.lookup (b : Buf) (n : Lba) : Option SlotIx :=
  b.slots.findIdx? (fun x => x.lba == some n && x.current)

/-- The slots for which a condition holds, in slot-number order. -/
def Buf.slotsWith (b : Buf) (f : Slot → Bool) : List SlotIx :=
  (List.range b.slots.length).filter (fun i => f (b.slot i))

/-- Pinned count (R46). -/
def Buf.pinnedCount (b : Buf) : Nat := b.slots.countP (·.st == .pinned)

/-- DIRTY+WRITING count (R28). -/
def Buf.workCount (b : Buf) : Nat := b.slots.countP Slot.inWork

/-- Do something for each slot of a list. -/
def Ev.forSlots (e : Ev) (l : List SlotIx) (f : Ev → SlotIx → Ev) : Ev := l.foldl f e

/-! ## Tags (R59) -/

def Cmd.tag (c : Cmd) (t : Tag) : TagRec := c.tags.getD t TagRec.empty

def Ev.setTag (e : Ev) (t : Tag) (r : TagRec) : Ev := { e with cmd.tags := e.cmd.tags.set t r }

/-- QUEUED, ACTIVE or ABORTING: a completion is owed (R79). -/
def TagRec.owed (r : TagRec) : Bool := r.st == .queued || r.st == .active || r.st == .aborting

/-- The owed completions (R79). -/
def Cmd.owedCount (c : Cmd) : Nat := c.tags.countP TagRec.owed

/-- The tags for which a condition holds, in tag order. -/
def Cmd.tagsWith (c : Cmd) (f : TagRec → Bool) : List Tag :=
  (List.range c.tags.length).filter (fun t => f (c.tag t))

/-- A QUEUED tag becomes ACTIVE (R60). -/
def Ev.activate (e : Ev) (t : Tag) : Ev :=
  if (e.cmd.tag t).st = .queued then e.setTag t { e.cmd.tag t with st := .active } else e

/-- Blocks done rises by 1 (R59). -/
def Ev.blockDone (e : Ev) (t : Tag) : Ev := e.setTag t { e.cmd.tag t with done := (e.cmd.tag t).done + 1 }

/-- Whether a WRITE or READ or other command of opcode o stands at tag t in state st. -/
def Cmd.isAt (c : Cmd) (t : Tag) (o : Opcode) (st : TagState) : Bool :=
  (c.tag t).op == some o && (c.tag t).st == st

/-! ## Report queue (R78 to R80) -/

/-- Records and owed completions together (R79), the completions of the event under way among the records. -/
def Ev.recordSum (e : Ev) : Nat := e.rep.recs.length + e.posted.length + e.cmd.owedCount

/-- A notice is posted, or dropped with NOTICE_LOST set (R80). -/
def Ev.notice (e : Ev) (n : Notice) : Ev :=
  if e.recordSum < Config.reportPlaces then { e with rep.recs := e.rep.recs ++ [.notice n] }
  else { e with rep.noticeLost := true }

/-- The completions of one event, in the order of their keys. -/
def insertPosted (p : Posted) : List Posted → List Posted
  | [] => [p]
  | q :: l => if p.key < q.key then p :: q :: l else q :: insertPosted p l

/-- The key of a tag's completion: its place in the acceptance order at the start of the event (R78). -/
def Ev.orderKey (e : Ev) (t : Tag) : Nat := 2 * e.order0.idxOf t

/-- A command completes (R60, R61, R79): the tag becomes REPORTED, leaves the acceptance order list, and its record
takes the place it had reserved. key is a lower bound where a rule orders the completion behind another. -/
def Ev.completeAfter (e : Ev) (key : Nat) (t : Tag) (st : Status) (lba : Lba) : Ev :=
  if (e.cmd.tag t).owed then
    { e with
      cmd.tags := e.cmd.tags.set t { e.cmd.tag t with st := .reported, claims := [] }
      cmd.order := e.cmd.order.filter (· != t)
      posted := insertPosted { key := max key (e.orderKey t),
                               report := .completion t st (e.cmd.tag t).done lba } e.posted }
  else e

/-- A command completes, in acceptance order among the completions of the event (R78). -/
def Ev.complete (e : Ev) (t : Tag) (st : Status) (lba : Lba) : Ev := e.completeAfter 0 t st lba

/-! ## Holds and write jobs (R20, R38) -/

/-- LBA n is held (R20). -/
def State.held (s : State) (n : Lba) : Bool := s.rpr.queue.any (·.lba == n)

/-- The job on the link, if it still has its owner (R116). -/
def Media.linkJob (m : Media) : Option Job := m.link.bind (fun o => if o.orphan.isNone then o.job else none)

/-- Every job of the HOST and destage lists and of the link: where the write jobs of an LBA are. -/
def Media.writeJobs (m : Media) : List Job := (m.hostQ ++ m.destageQ ++ m.linkJob.toList).filter (·.kind == .write)

/-- A write job of LBA n exists, waiting or on the link (R38). A repair's WRITE has a fixed target and is none. -/
def State.writeJobOf (s : State) (n : Lba) : Bool := s.media.writeJobs.any (·.target == .lba n)

/-- A destage job exists (R43). -/
def State.destageJob (s : State) : Bool :=
  !s.media.destageQ.isEmpty || s.media.linkJob.any (fun j => j.cls == .destage)

/-- The write job of slot i exists (R38). -/
def State.jobOfSlot (s : State) (i : SlotIx) : Bool :=
  (s.media.hostQ ++ s.media.destageQ ++ s.media.linkJob.toList).any (fun j => j.place == some (.slot i))

/-- The WRITE that is owed the block of an entry: the one attached, or the one a latch has left without its attachment
(R66, R138; log 13). -/
def RepairEntry.owedTo (x : RepairEntry) : Option Tag := x.wtTag.or x.wtFormer

/-- The write-through blocks a WRITE owes (R66): its WRITING slots, and its blocks held by REMAP_WRITE repairs. -/
def State.owedBlocks (s : State) (t : Tag) : Nat :=
  s.buf.slots.countP (fun x => x.st == .writing && x.owner == some (.tag t))
    + s.rpr.queue.countP (fun r => r.owedTo == some t)

/-- The VERIFY jobs a VERIFY command has owed (R68). -/
def State.owedVerifies (s : State) (t : Tag) : Nat :=
  (s.media.hostQ ++ s.media.linkJob.toList).countP (fun j => j.owner == .tag t && j.kind == .verify)

/-- A job returns to the head of its list (R105). -/
def Media.requeue (m : Media) (j : Job) : Media :=
  match j.cls with
  | .table => { m with tableQ := j :: m.tableQ }
  | .host => { m with hostQ := j :: m.hostQ }
  | .destage => { m with destageQ := j :: m.destageQ }
  | .repair => { m with repairQ := j :: m.repairQ }
  | .patrol => { m with patrolQ := j :: m.patrolQ }

/-- A new job of a class, joining its list at the tail (R105). -/
def Media.addJob (m : Media) (j : Job) : Media :=
  match j.cls with
  | .table => { m with tableQ := m.tableQ ++ [j] }
  | .host => { m with hostQ := m.hostQ ++ [j] }
  | .destage => { m with destageQ := m.destageQ ++ [j] }
  | .repair => { m with repairQ := m.repairQ ++ [j] }
  | .patrol => { m with patrolQ := m.patrolQ ++ [j] }

def Ev.addJob (e : Ev) (j : Job) : Ev := { e with media := e.media.addJob j }

/-- A job record as its creation makes it (R104). -/
def newJob (cls : JobClass) (owner : JobOwner) (kind : JobKind) (target : Target) (place : Option Place) : Job :=
  { cls := cls, owner := owner, kind := kind, target := target, place := place, attempts := 0,
    verifyDecision := none, phase := .write }

/-! ## Ports -/

def Ports.get (p : Ports) : PortId → Port
  | .p0 => p.p0
  | .p1 => p.p1

def Ports.set (p : Ports) (i : PortId) (x : Port) : Ports :=
  match i with
  | .p0 => { p with p0 := x }
  | .p1 => { p with p1 := x }

/-- A port unbinds if it is bound to tag t (R94); EMPTY_ACCESS stays. -/
def Port.release (p : Port) (t : Tag) : Port :=
  if p.bound.any (·.tag == t) then { p with bound := none } else p

/-- The port of tag t unbinds (R94). -/
def Ev.unbind (e : Ev) (t : Tag) : Ev :=
  { e with ports.p0 := e.ports.p0.release t, ports.p1 := e.ports.p1.release t }

/-- The binding of tag t, if it has a port. -/
def Ports.ofTag (p : Ports) (t : Tag) : Option Binding :=
  match p.p0.bound with
  | some b => if b.tag = t then some b else p.p1.bound.filter (·.tag == t)
  | none => p.p1.bound.filter (·.tag == t)

/-! ## Acceptance order -/

/-- The tags of a list put in acceptance order (R85, R137). -/
def Cmd.inOrder (c : Cmd) (l : List Tag) : List Tag := c.order.filter (fun t => l.contains t)

end Sys2Proof.Machine
end

