-- ==== Sys2Proof/Machine/Translation.lean ====
section
/-! DEFINITION. Machine/Translation.lean: translation, the spare pool, the remap table and the suspect list
(chapter 1). -/

namespace Sys2Proof.Machine

open Sys2Proof

/-- Translation of an LBA (R2). -/
def Trans.translate (t : Trans) (n : Lba) : Pba :=
  match t.remap.find? (·.lba == n) with
  | some r => t.blocks + r.spare
  | none => n

/-- SPARE_FREE (R7). -/
def Trans.freeCount (t : Trans) : Nat := t.spares.countP (· == .free)

/-- The lowest-indexed FREE spare (R8). -/
def Trans.lowestFree (t : Trans) : Option Nat := t.spares.findIdx? (· == .free)

/-- An entry joins the remap table at its place, or takes the place of the entry of its LBA (R4, R5). -/
def insertRemap (r : RemapEntry) : List RemapEntry → List RemapEntry
  | [] => [r]
  | x :: xs =>
    if r.lba < x.lba then r :: x :: xs
    else if r.lba = x.lba then r :: xs
    else x :: insertRemap r xs

/-- TABLE_DIRTY is set (R12). -/
def Ev.markDirty (e : Ev) : Ev := { e with store.dirty := true }

/-- A spare takes a state. -/
def Trans.setSpare (t : Trans) (r : Nat) (st : SpareState) : Trans := { t with spares := t.spares.set r st }

/-- The SPARE_LOW test of a reservation (R11). -/
def Ev.spareLowOnReserve (e : Ev) : Ev :=
  if e.trans.armed && e.trans.freeCount ≤ e.trans.spareLow then
    { (e.notice (.spareLow e.trans.freeCount)) with trans.armed := false }
  else e

/-- The SPARE_LOW test at the end of a load or PREPARE (R11). -/
def Ev.spareLowOnTables (e : Ev) : Ev :=
  if e.trans.freeCount ≤ e.trans.spareLow then
    { (e.notice (.spareLow e.trans.freeCount)) with trans.armed := false }
  else { e with trans.armed := true }

/-- A FREE spare becomes RESERVED (R8). -/
def Ev.reserveSpare (e : Ev) (r : Nat) : Ev :=
  Ev.spareLowOnReserve { e with trans := e.trans.setSpare r .reserved }

/-- A spare becomes RETIRED (R9, R10). -/
def Ev.retireSpare (e : Ev) (r : Nat) : Ev :=
  Ev.markDirty { e with trans := e.trans.setSpare r .retired }

/-- A RESERVED spare returns to FREE, without TABLE_DIRTY and without the arming (R9). -/
def Ev.returnSpare (e : Ev) (r : Nat) : Ev := { e with trans := e.trans.setSpare r .free }

/-- LBA n is on the suspect list (R13). -/
def Trans.suspect (t : Trans) (n : Lba) : Bool := t.suspects.any (·.lba == n)

/-- An add request (R14). -/
def Ev.suspectAdd (e : Ev) (n : Lba) (c : Cause) : Ev :=
  if e.trans.suspect n then e
  else if e.trans.suspects.length < Config.suspectPlaces then
    Ev.notice { e with trans.suspects := e.trans.suspects ++ [{ lba := n, cause := c }], store.dirty := true }
      (.suspectAdded n c)
  else e.notice (.suspectFull n)

/-- The entry of LBA n leaves the suspect list (R13). -/
def Trans.withoutSuspect (t : Trans) (n : Lba) : Trans :=
  { t with suspects := t.suspects.filter (·.lba != n) }

/-- A removal by an outcome (R16, R18). -/
def Ev.suspectClear (e : Ev) (n : Lba) (how : ClearedBy) : Ev :=
  if e.trans.suspect n then
    Ev.notice { e with trans := e.trans.withoutSuspect n, store.dirty := true } (.suspectCleared n how)
  else e

/-- The spare LBA n is mapped to, if any (R4). -/
def Trans.spareOf (t : Trans) (n : Lba) : Option Nat := (t.remap.find? (·.lba == n)).map (·.spare)

/-- The tables after the update of a repair of LBA n onto spare r (R5). -/
def Trans.mapTo (t : Trans) (n : Lba) (r : Nat) (o : Origin) : Trans :=
  let t1 := match t.spareOf n with
    | some q => t.setSpare q .retired
    | none => t
  { (t1.setSpare r .mapped) with
    remap := insertRemap { lba := n, spare := r, origin := o } t.remap
    suspects := t.suspects.filter (·.lba != n) }

/-- The table update of a repair with its REMAPPED notice (R5, R145). -/
def Ev.tableUpdate (e : Ev) (n : Lba) (r : Nat) (o : Origin) : Ev :=
  Ev.notice { e with trans := e.trans.mapTo n r o, store.dirty := true } (.remapped n r o)

/-- The tables of a PREPARE with spare count s on a unit of capacity p (R26). -/
def Trans.prepared (t : Trans) (p s : Nat) : Trans :=
  { t with spareCount := s, blocks := p - s - 16, remap := [], suspects := [],
           spares := List.replicate s .free, armed := false }

/-- No tables: S and L are 0 (R1, R26). -/
def Trans.noTables (t : Trans) : Trans :=
  { t with spareCount := 0, blocks := 0, remap := [], suspects := [], spares := [] }

/-- The tables of an image come into use (R1, R25). -/
def Trans.ofImage (t : Trans) (img : Image) : Trans :=
  { t with spareCount := img.s, blocks := img.l, remap := img.remap, spares := img.spares,
           suspects := img.suspects }

/-- Block k of a table copy on a unit of capacity p (R1). -/
def copyBlock (p : Nat) (c : Copy) (k : Nat) : Pba :=
  match c with
  | .a => p - 16 + k
  | .b => p - 8 + k

end Sys2Proof.Machine
end

