-- ==== Sys2Proof/Machine/Commands.lean ====
section
/-! DEFINITION. Machine/Commands.lean: what a command holds and releases, the overlap hold, and the ways a WRITE, READ
or VERIFY ends (chapter 3, R51). -/

namespace Sys2Proof.Machine

open Sys2Proof

/-! ## The overlap hold (R62) -/

/-- The LBAs a command keeps to itself (Table 3-1): first LBA and count, if it has a range. -/
def TagRec.range (r : TagRec) : Option (Lba × Nat) :=
  match r.op with
  | some .read | some .write | some .verify => some (r.lba, r.count)
  | some .relocate | some .releasePinned => some (r.lba, 1)
  | some .flush | some .clearSuspect | some .prepare | none => none

/-- Writers (Table 3-1). -/
def TagRec.writer (r : TagRec) : Bool := r.op == some .write || r.op == some .releasePinned

/-- Two ranges share an LBA. -/
def overlap (a b : Lba × Nat) : Bool := decide (a.1 < b.1 + b.2) && decide (b.1 < a.1 + a.2)

/-- An earlier command holds a later one (R62). -/
def TagRec.holds (x c : TagRec) : Bool :=
  match x.range, c.range with
  | some a, some b => overlap a b && (x.writer || c.writer)
  | _, _ => false

/-- The tags ahead of t in the acceptance order list. -/
def Cmd.ahead (c : Cmd) (t : Tag) : List Tag := c.order.takeWhile (· != t)

/-- A QUEUED command is held (R62). -/
def Cmd.isHeld (c : Cmd) (t : Tag) : Bool := (c.ahead t).any (fun x => (c.tag x).holds (c.tag t))

/-! ## Claims and holdings (R31, R51) -/

/-- Tag t claims slot i for its block k (R31). -/
def Ev.claim (e : Ev) (t : Tag) (k : Nat) (i : SlotIx) : Ev :=
  let e1 := e.setSlot i { e.buf.slot i with claims := (e.buf.slot i).claims + 1 }
  e1.setTag t { e1.cmd.tag t with claims := (e1.cmd.tag t).claims ++ [(k, i)] }

/-- Tag t drops its claim on slot i (R31). -/
def Ev.dropClaim (e : Ev) (t : Tag) (i : SlotIx) : Ev :=
  let e1 := e.setSlot i { e.buf.slot i with claims := (e.buf.slot i).claims - 1 }
  e1.setTag t { e1.cmd.tag t with claims := (e1.cmd.tag t).claims.filter (·.2 != i) }

/-- The tags that claim slot i, in acceptance order (R31). -/
def Cmd.claimants (c : Cmd) (i : SlotIx) : List Tag :=
  c.order.filter (fun t => (c.tag t).claims.any (·.2 == i))

/-- A slot with claims becomes FREE and every claim on it is dropped (R41). -/
def Ev.freeClaimed (e : Ev) (i : SlotIx) : Ev :=
  let e1 := (e.cmd.claimants i).foldl
    (fun e t => e.setTag t { e.cmd.tag t with claims := (e.cmd.tag t).claims.filter (·.2 != i) }) e
  e1.freeSlot i

/-- A load job of tag t becomes a job of the Staging Buffer (R42). -/
def Job.detach (j : Job) (t : Tag) : Job :=
  if j.owner == .tag t && j.kind == .read then { j with owner := .staging } else j

/-- The loads tag t owns are detached (R42, R51). -/
def Ev.detachLoads (e : Ev) (t : Tag) : Ev :=
  let e1 := (e.buf.slotsWith (fun x => x.st == .loading && x.owner == some (.tag t))).foldl
    (fun e i => e.setSlot i { e.buf.slot i with owner := none }) e
  { e1 with
    media.hostQ := e1.media.hostQ.map (·.detach t)
    media.link := e1.media.link.map (fun o => { o with job := o.job.map (·.detach t) }) }

/-- The FILLING slot and the allocator request of tag t go, and its port unbinds (R51, R67). -/
def Ev.stopFilling (e : Ev) (t : Tag) : Ev :=
  let e1 := (e.buf.slotsWith (fun x => x.st == .filling && x.owner == some (.tag t))).foldl Ev.freeSlot e
  Ev.unbind { e1 with buf.allocQ := e1.buf.allocQ.filter (·.tag != t) } t

/-- What a command holds in the Staging Buffer is released and its port unbinds (R51). Its claims are dropped in block
order (log 12: the model's choice). -/
def Ev.release (e : Ev) (t : Tag) : Ev :=
  let e1 := e.stopFilling t
  let e2 := ((e1.cmd.tag t).claims).foldl (fun e c => e.dropClaim t c.2) e1
  e2.detachLoads t

/-! ## Ends of a WRITE (R66, R67, R76) -/

/-- A WRITE completes if its state calls for it (R66, R67, R76). -/
def Ev.writeCheck (e : Ev) (key : Nat) (t : Tag) : Ev :=
  let r := e.cmd.tag t
  if r.st = .active then
    match r.failure with
    | some (st, n) => if e.owedBlocks t = 0 then e.completeAfter key t st n else e
    | none => if r.done = r.count then e.completeAfter key t .good r.lba else e
  else if r.st = .aborting then
    if e.owedBlocks t = 0 then e.completeAfter key t .aborted r.lba else e
  else e

/-- A WRITE records a failure: the first one is kept, and takes its port and its filling from it (R67). A WRITE in
ABORTING records none (R76). -/
def Ev.recordFailure (e : Ev) (t : Tag) (st : Status) (n : Lba) : Ev :=
  let r := e.cmd.tag t
  if r.st = .active && r.failure.isNone then
    (e.setTag t { r with failure := some (st, n) }).stopFilling t
  else e

/-- A write-through block of tag t has failed (R67, R76). -/
def Ev.writeFailed (e : Ev) (key : Nat) (t : Tag) (st : Status) (n : Lba) : Ev :=
  (e.recordFailure t st n).writeCheck key t

/-- The tag leaves the repair as its write-through tag, and nothing is owed to it any more (R67, R138). -/
def RepairEntry.dropThrough (t : Tag) (x : RepairEntry) : RepairEntry :=
  { x with
    wtTag := if x.wtTag = some t then none else x.wtTag
    wtFormer := if x.wtFormer = some t then none else x.wtFormer }

/-- The tag leaves the repair as its write-through tag at a latch that does not fail its WRITE, which is still owed the block
(R66, R129, R138; log 13). -/
def RepairEntry.loosenThrough (t : Tag) (x : RepairEntry) : RepairEntry :=
  if x.wtTag = some t then { x with wtTag := none, wtFormer := some t } else x

/-- The write-through slots of tag t become FREE and its attached repairs lose the attachment (R67, R138). -/
def Ev.dropThrough (e : Ev) (t : Tag) : Ev :=
  let e1 := (e.buf.slotsWith (fun x => x.st == .writing && x.owner == some (.tag t))).foldl Ev.freeSlot e
  { e1 with rpr.queue := e1.rpr.queue.map (RepairEntry.dropThrough t) }

/-- The attached repairs of a WRITE that a latch does not fail lose the attachment (R129, R138; log 13). -/
def Ev.loosenThrough (e : Ev) (t : Tag) : Ev :=
  { e with rpr.queue := e.rpr.queue.map (RepairEntry.loosenThrough t) }

/-- A LATCHED gate fails the WRITE of tag t, at the latch or at the creation of its job for LBA n: none of its
write-through blocks keeps it waiting, and it completes MEDIA_UNAVAILABLE, or with the failure it had recorded, or ABORTED
(R51, R67, R76, R129, R130). -/
def Ev.writeLatched (e : Ev) (t : Tag) (n : Lba) : Ev := (e.dropThrough t).writeFailed 0 t .mediaUnavailable n

/-- A write-through block of tag t has ended well (R66). -/
def Ev.writeEnded (e : Ev) (key : Nat) (t : Tag) : Ev := (e.blockDone t).writeCheck key t

/-! ## Ends of a READ and of a VERIFY (R65, R68) -/

/-- A READ fails: its claims go, its port unbinds, it completes (R65). -/
def Ev.readFails (e : Ev) (t : Tag) (st : Status) (n : Lba) : Ev := (e.release t).complete t st n

/-- The VERIFY jobs of tag t that wait are removed (R68, R75). -/
def Ev.dropVerifies (e : Ev) (t : Tag) : Ev :=
  { e with media.hostQ := e.media.hostQ.filter (fun j => !(j.owner == .tag t && j.kind == .verify)) }

/-- A VERIFY fails (R68). -/
def Ev.verifyFails (e : Ev) (t : Tag) (st : Status) (n : Lba) : Ev := (e.dropVerifies t).complete t st n

/-- A VERIFY skips LBA n: the buffer holds data that will replace what the medium holds (R68). -/
def Buf.skips (b : Buf) (n : Lba) : Bool :=
  match (b.lookup n).map (fun i => (b.slot i).st) with
  | some .dirty | some .writing | some .pinned => true
  | some .free | some .filling | some .loading | some .clean | none => false

/-- A VERIFY reaches its next block (R68): skipped, checked by a new job, or, under a LATCHED gate, failed (R130). -/
def Ev.verifyReach (e : Ev) (t : Tag) : Ev :=
  let r := e.cmd.tag t
  let n := r.lba + r.looked
  let e1 := e.setTag t { r with looked := r.looked + 1 }
  if e.buf.skips n then e1.blockDone t
  else if e.gate.st = .latched then e1.verifyFails t .mediaUnavailable n
  else e1.addJob (newJob .host (.tag t) .verify (.lba n) none)

/-- A VERIFY may reach its next block: nothing is owed, or one block is owed and the next is not one to skip, so that blocks
done rises in block order (R68; log 11). -/
def State.verifyMay (s : State) (t : Tag) : Bool :=
  let r := s.cmd.tag t
  decide (r.looked < r.count)
    && (s.owedVerifies t == 0 || (s.owedVerifies t == 1 && !s.buf.skips (r.lba + r.looked)))

/-- An ACTIVE VERIFY reaches blocks while it may, and completes when all are done (R68). The bound is its block count. -/
def Ev.verifyGo (fuel : Nat) (e : Ev) (t : Tag) : Ev :=
  match fuel with
  | 0 => e
  | k + 1 =>
    let r := e.cmd.tag t
    if e.cmd.isAt t .verify .active then
      if r.done = r.count then e.complete t .good r.lba
      else if e.verifyMay t then (e.verifyReach t).verifyGo k t
      else e
    else e

/-- Enough turns for every block and the completion. -/
def Ev.verifyAdvance (e : Ev) (t : Tag) : Ev := e.verifyGo (Config.slotCount + 1) t

end Sys2Proof.Machine
end

