-- ==== Sys2Proof/Machine/Repair.lean ====
section
/-! DEFINITION. Machine/Repair.lean: the repair queue, the admission wait, and the steps and ends of the active repair
(chapter 7). -/

namespace Sys2Proof.Machine

open Sys2Proof

/-! ## Ends of a repair (R147 to R149) -/

/-- The head entry leaves the queue, with the active-repair record, and the repair buffer is released (R147). -/
def Ev.popRepair (e : Ev) : Ev := { e with rpr.queue := e.rpr.queue.tail, rpr.active := none, rpr.buf := [] }

/-- The attached RELOCATE command, if any, completes (Table 7-1). -/
def Ev.endRelocate (e : Ev) (key : Nat) (x : RepairEntry) (st : Status) : Ev :=
  match x.relTag with
  | some t => e.completeAfter key t st (e.cmd.tag t).lba
  | none => e

/-- The FLUSH commands whose sets are empty: they complete in this event (R50). -/
def Ev.emptySets (e : Ev) : List Tag := (e.buf.flush.filter (·.slots.isEmpty)).map (·.tag)

/-- The key behind every FLUSH that the event completes (R147: the data place first, then the attached commands). -/
def Ev.afterFlushes (e : Ev) : Nat := e.emptySets.foldl (fun k t => max k (e.orderKey t + 1)) 0

/-- The key behind the commands that an entry informs (R148: the attached commands, then any FLUSH). -/
def Ev.afterAttached (e : Ev) (x : RepairEntry) : Nat :=
  (x.relTag.toList ++ x.owedTo.toList).foldl (fun k t => max k (e.orderKey t + 1)) 0

/-- A slot written well leaves WRITING (R39, R45, R147). -/
def Ev.slotWritten (e : Ev) (i : SlotIx) : Ev :=
  let x := e.buf.slot i
  if x.superseded then e.freeSlot i else e.setSlot i { x with st := .clean, owner := none }

/-- Step 8 of a repair that has mapped its LBA (R147). The WRITE that is owed the block counts it (R66). -/
def Ev.repairMapped (e : Ev) (x : RepairEntry) : Ev :=
  let e1 := match x.kind, x.slot with
    | .remapWrite, some i => e.slotWritten i
    | _, _ => e
  let key := e1.afterFlushes
  let e2 := e1.popRepair.endRelocate key x .good
  match x.owedTo with
  | some t => e2.writeEnded key t
  | none => e2

/-- A REMAP_WRITE repair finds no spare (R47, R148). The slot goes by the tag that is attached; the WRITE that is owed the
block records its failure (R67; log 13 for a tag that a latch has removed). -/
def Ev.remapNoSpare (e : Ev) (x : RepairEntry) : Ev :=
  let i := x.slot.getD 0
  let y := e.buf.slot i
  let e1 := match x.wtTag with
    | some _ => (e.freeSlot i).suspectAdd x.lba .writeFailed
    | none =>
      if y.superseded then e.freeSlot i
      else (e.setSlot i { y with st := .pinned, owner := none }).notice (.pinned x.lba)
  let e2 := e1.popRepair.endRelocate 0 x .noSpare
  let e3 := match x.owedTo with
    | some t => e2.writeFailed 0 t .writeFailed x.lba
    | none => e2
  { e3 with flushKey := max e3.flushKey (e.afterAttached x) }

/-- A RELOCATE repair ends as a failed relocation (R149). -/
def Ev.relocationFailed (e : Ev) (x : RepairEntry) (why : RelocFail) : Ev :=
  ((e.notice (.relocateFailed x.lba why)).popRepair).endRelocate 0 x
    (match why with | .noSpare => .noSpare | .rereadFailed => .rereadFailed)

/-! ## Steps of the active repair (R139 to R145) -/

/-- Step 3: a spare is reserved and its WRITE created, or the repair ends without a spare (R142). -/
def Ev.repairReserve (e : Ev) (x : RepairEntry) (p : Place) : Ev :=
  match e.trans.lowestFree with
  | some r =>
    let e1 := e.reserveSpare r
    Ev.addJob { e1 with rpr.active := some { step := .spareWrite, spare := some r, place := some p, covered := false } }
      (newJob .repair .repair .write (.pba (e1.trans.blocks + r)) (some p))
  | none =>
    match x.kind with
    | .remapWrite => e.remapNoSpare x
    | .relocate => e.relocationFailed x .noSpare

/-- The words a RELOCATE may copy: those of the LBA's current slot, if it holds data (R140). -/
def Buf.copyOf (b : Buf) (n : Lba) : Option (List Word) :=
  match b.lookup n with
  | some i => if (b.slot i).st = .loading && (b.slot i).data.isEmpty then none else some (b.slot i).data
  | none => none

/-- Step 2: the data place is fixed (R140). -/
def Ev.repairData (e : Ev) (x : RepairEntry) : Ev :=
  match x.kind with
  | .remapWrite => e.repairReserve x (.slot (x.slot.getD 0))
  | .relocate =>
    match e.buf.copyOf x.lba with
    | some w => Ev.repairReserve { e with rpr.buf := w } x .repairBuf
    | none =>
      Ev.addJob { e with rpr.active := some { step := .read, spare := none, place := some .repairBuf, covered := false } }
        (newJob .repair .repair .read (.lba x.lba) (some .repairBuf))

/-- The entry at the head becomes the active repair (R134, R139). -/
def Ev.repairBegin (e : Ev) (x : RepairEntry) : Ev :=
  let e1 : Ev :=
    { e with rpr.active := some { step := .waitWrite, spare := none, place := none, covered := false } }
  if e.writeJobOf x.lba then e1 else e1.repairData x

/-- REPAIR_ACTIVATION, when an entry stands at the head of the queue with no active repair (R134). -/
def Ev.repairActivate? (e : Ev) : Option Ev :=
  match e.rpr.queue, e.rpr.active with
  | x :: _, none => some (e.repairBegin x)
  | _, _ => none

def Ev.repairActivate (e : Ev) : Ev := e.repairActivate?.getD e

/-- The active repair leaves WAIT_WRITE when no write job of its LBA exists any more (R139). -/
def Ev.repairWake (e : Ev) : Ev :=
  match e.rpr.queue, e.rpr.active with
  | x :: _, some a => if a.step = .waitWrite && !e.writeJobOf x.lba then e.repairData x else e
  | _, _ => e

/-- The active repair's spare has failed: it becomes RETIRED and step 3 is taken again (R143, R144). -/
def Ev.spareFailed (e : Ev) (x : RepairEntry) (a : ActiveRepair) : Ev :=
  let e1 := match a.spare with
    | some r => e.retireSpare r
    | none => e
  Ev.repairReserve { e1 with rpr.active := some { a with spare := none } } x (a.place.getD .repairBuf)

/-- The WRITE of the spare was GOOD: its VERIFY is created (R143). -/
def Ev.spareWritten (e : Ev) (a : ActiveRepair) : Ev :=
  Ev.addJob { e with rpr.active := some { a with step := .spareVerify } }
    (newJob .repair .repair .verify (.pba (e.trans.blocks + a.spare.getD 0)) none)

/-- The VERIFY of the spare passed: step 6 (R145). -/
def Ev.sparePassed (e : Ev) (x : RepairEntry) (a : ActiveRepair) : Ev :=
  let e1 := e.tableUpdate x.lba (a.spare.getD 0) x.origin
  { e1 with rpr.active := some { a with step := .commitWait, spare := none, covered := false } }

/-! ## Requests and admission (R135 to R137) -/

/-- The position of the entry of an LBA. -/
def Rpr.entryOf (r : Rpr) (n : Lba) : Option Nat := r.queue.findIdx? (·.lba == n)

/-- One command of the admission wait meets the queue (R137). -/
def Ev.admitOne (e : Ev) (t : Tag) : Ev :=
  let n := (e.cmd.tag t).lba
  match e.rpr.entryOf n with
  | some k =>
    match e.rpr.queue[k]? with
    | some x =>
      if x.relTag.isNone then
        { e with rpr.queue := e.rpr.queue.set k { x with relTag := some t }, rpr.wait := e.rpr.wait.filter (· != t) }
      else e
    | none => e
  | none =>
    if e.rpr.queue.length ≤ Config.relocateRoom then
      { e with
        rpr.queue := e.rpr.queue ++ [{ kind := .relocate, lba := n, origin := .software, slot := none,
                                       relTag := some t, wtTag := none }]
        rpr.wait := e.rpr.wait.filter (· != t) }
    else e

/-- The walk of the admission wait, oldest command first (R137). -/
def Ev.admissionWalk (e : Ev) : Ev := e.rpr.wait.foldl Ev.admitOne e

/-- ADMISSION_WAIT_SERVE, when the walk serves a command (R137). -/
def Ev.admissionServe? (e : Ev) : Option Ev :=
  if e.admissionWalk.rpr.wait.length < e.rpr.wait.length then some e.admissionWalk else none

/-- A RELOCATE request of origin CORRECTED_READ (R136). -/
def Ev.relocateRequest (e : Ev) (n : Lba) : Ev :=
  if e.held n then e
  else if e.rpr.queue.length ≤ Config.relocateRoom then
    (Ev.admissionWalk
      { e with rpr.queue := e.rpr.queue ++ [{ kind := .relocate, lba := n, origin := .correctedRead, slot := none,
                                              relTag := none, wtTag := none }] }).repairActivate
  else e.notice (.relocateDropped n)

/-- A REMAP_WRITE request (R135): it joins at the tail, or replaces the entry of its LBA, which then leaves WAIT_WRITE. -/
def Ev.remapRequest (e : Ev) (n : Lba) (i : SlotIx) (wt : Option Tag) : Ev :=
  match e.rpr.entryOf n with
  | some k =>
    Ev.repairWake
      { e with rpr.queue := e.rpr.queue.modify k (fun x =>
          { x with kind := .remapWrite, origin := .writeFault, slot := some i, wtTag := wt }) }
  | none =>
    (Ev.admissionWalk
      { e with rpr.queue := e.rpr.queue ++ [{ kind := .remapWrite, lba := n, origin := .writeFault, slot := some i,
                                              relTag := none, wtTag := wt }] }).repairActivate

end Sys2Proof.Machine
end

