-- ==== Sys2Proof/Machine/Gate.lean ====
section
/-! DEFINITION. Machine/Gate.lean: trips, the latch with its fail-fast, reopening, and the fault line (chapter 6). -/

namespace Sys2Proof.Machine

open Sys2Proof

/-- The gate is armed (R121). -/
def RunState.armed : RunState → Bool
  | .loading | .unprepared | .ready | .quiesce => true
  | .starting | .unitRejected => false

/-- The outstanding op is abandoned: its job returns to the head of its list, or is removed if it has no owner left
(R111). -/
def Ev.abandonOp (e : Ev) : Ev :=
  match e.media.link with
  | none => e
  | some o =>
    let m := { e.media with link := none, opTimer := none }
    match o.job, o.orphan with
    | some j, none => { e with media := m.requeue j }
    | _, _ => { e with media := m }

/-! ## The fail-fast of a latch (R129) -/

/-- The slot a load or write job works on. -/
def Job.slot? (j : Job) : Option SlotIx :=
  match j.place with
  | some (.slot i) => some i
  | some .repairBuf | some (.image _) | none => none

/-- The LBA of a job's target. -/
def Job.lba? (j : Job) : Option Lba :=
  match j.target with
  | .lba n => some n
  | .pba _ => none

/-- The lowest number of a list. -/
def leastOf : List Nat → Option Nat
  | [] => none
  | x :: xs =>
    match leastOf xs with
    | some y => some (min x y)
    | none => some x

/-- The slots whose loads fail. -/
def failingLoads (jobs : List Job) : List SlotIx :=
  (jobs.filter (·.kind == .read)).filterMap Job.slot?

/-- The lowest LBA of the jobs of tag t among those that fail. -/
def failingLba (jobs : List Job) (t : Tag) (k : JobKind) : Option Lba :=
  leastOf ((jobs.filter (fun j => j.owner == .tag t && j.kind == k)).filterMap Job.lba?)

/-- The lowest block of a READ whose load fails, as the index of the block in its command (R129). -/
def TagRec.failingBlock (r : TagRec) (slots : List SlotIx) : Option Nat :=
  leastOf ((r.claims.filter (fun c => slots.contains c.2)).map (·.1))

/-- What a latch that fails the HOST jobs of a list does to tag t (R129; R76 for ABORTING). An ACTIVE WRITE with no failing
job goes on, and its repairs lose the attachment all the same (R138; log 13). A WRITE in ABORTING completes ABORTED at every
latch, also where it has no write-through job: that R76 goes before R129 there is the model's choice (log 34). -/
def Ev.latchTag (jobs : List Job) (e : Ev) (t : Tag) : Ev :=
  let r := e.cmd.tag t
  match r.op, r.st with
  | some .read, .active =>
    match r.failingBlock (failingLoads jobs) with
    | some k => e.readFails t .mediaUnavailable (r.lba + k)
    | none => e
  | some .verify, .active =>
    match failingLba jobs t .verify with
    | some n => e.verifyFails t .mediaUnavailable n
    | none => e
  | some .write, .active =>
    match failingLba jobs t .write with
    | some n => e.writeLatched t n
    | none => e.loosenThrough t
  | some .write, .aborting => e.writeLatched t r.lba
  | _, _ => e

/-- Every HOST job fails, and its owner takes the failure, in acceptance order (R129). That several READs which fail here drop
their claims in that order too, and so the order in which their CLEAN slots join the clean list, is the model's choice
(log 12). A repair that waited for one of the write jobs goes on (R139). -/
def Ev.failFast (e : Ev) : Ev :=
  let jobs := e.media.hostQ
  let e1 : Ev := { e with media.hostQ := [] }
  let e2 := e1.cmd.order.foldl (Ev.latchTag jobs) e1
  let e3 := (failingLoads jobs).foldl Ev.freeClaimed e2
  e3.repairWake

/-- The gate enters LATCHED (R124, R128). -/
def Ev.latch (e : Ev) : Ev :=
  Ev.failFast (Ev.notice { e with gate.st := .latched, gate.holdTimer := none } (.gateLatched e.gate.trips))

/-- A trip input (R124): a trip when the gate is armed and OPEN, else nothing. -/
def Ev.tripInput (e : Ev) (c : TripCause) : Ev :=
  if e.store.run.armed && e.gate.st == .opened then
    let e1 := e.abandonOp
    let e2 := Ev.notice { e1 with gate.trips := e1.gate.trips + 1 } (.trip c)
    if e2.gate.mode = .latched ∨ e2.gate.tripLimit ≤ e2.gate.trips then e2.latch
    else { e2 with gate.st := .hold, gate.holdTimer := some e2.gate.holdCfg }
  else e

/-- The hold timer expires (R126). -/
def Ev.holdExpires (e : Ev) : Ev :=
  if e.gate.holdTimer.isSome && e.gate.st == .hold then
    if e.gate.line then { e with gate.st := .waitClear, gate.holdTimer := none }
    else Ev.notice { e with gate.st := .opened, gate.holdTimer := none } (.gateReopened .auto)
  else e

/-- A reopen request (R127). -/
def Ev.reopen (e : Ev) : Ev :=
  if e.gate.st = .latched then
    if e.gate.line then { e with gate.refused := true }
    else Ev.notice { e with gate.st := .opened, gate.trips := 0 } (.gateReopened .software)
  else e

/-- A write of GATE_CFG (R128). -/
def Ev.gateConfigure (e : Ev) (v : Word) : Ev :=
  let e1 : Ev := { e with gate := e.gate.withCfg v }
  if e.gate.mode = .auto ∧ e1.gate.mode = .latched ∧ (e.gate.st = .hold ∨ e.gate.st = .waitClear) then e1.latch
  else e1

/-! ## The fault line (R122) -/

/-- The line and its filter as the line becomes asserted (R122, R132). -/
def Gate.lineAsserted (g : Gate) : Gate :=
  { g with line := true, filter := if g.filterCfg = .off then .asserted else .measuring g.filterCfg }

/-- The line becomes asserted (R122). -/
def Ev.lineAssert (e : Ev) : Ev :=
  let e1 : Ev := { e with gate := e.gate.lineAsserted }
  if e1.gate.filter = .asserted then e1.tripInput .faultLine else e1

/-- The line and its filter as the line is released, and WAIT_CLEAR going back to HOLD (R122, R126). -/
def Gate.lineReleased (g : Gate) : Gate :=
  if g.st = .waitClear then { g with line := false, filter := .idle, st := .hold, holdTimer := some g.holdCfg }
  else { g with line := false, filter := .idle }

/-- The filter is MEASURING. -/
def FilterState.isMeasuring : FilterState → Bool
  | .measuring _ => true
  | .idle | .asserted => false

/-- The line has stayed asserted for the measured width (R122). -/
def Ev.filterExpires (e : Ev) : Ev :=
  if e.gate.filter.isMeasuring then Ev.tripInput { e with gate.filter := .asserted } .faultLine else e

end Sys2Proof.Machine
end

