-- ==== Sys2Proof/Machine/Flags.lean ====
section
/-! DEFINITION. Machine/Flags.lean: the flags and outputs that follow the state: the fields of STATUS, the port states and
attention, the urgency of destage, the newest generation, and INT_N. -/

namespace Sys2Proof.Machine

open Sys2Proof

/-- THROUGH_FORCED (R35, R46). -/
def Buf.throughForced (b : Buf) : Bool := decide (Config.pinLimit ≤ b.pinnedCount)

/-- PATROL_ACTIVE: a patrol job exists (R156). -/
def Patrol.active (p : Patrol) : Bool := p.st == .pending || p.st == .running

/-- CONTROL.PATROL_EN as read (R156, R164). -/
def Patrol.enabled (p : Patrol) : Bool := p.st != .off && !(p.finishing && !p.restart)

/-- COMMIT_BUSY (R169). -/
def Store.commitBusy (s : Store) : Bool := s.commit.isSome

/-- The status of a copy. -/
def Store.copy (s : Store) : Copy → CopyStatus
  | .a => s.copyA
  | .b => s.copyB

def Store.setCopy (s : Store) (c : Copy) (x : CopyStatus) : Store :=
  match c with
  | .a => { s with copyA := x }
  | .b => { s with copyB := x }

/-- Generation of a VALID copy. -/
def CopyStatus.gen? : CopyStatus → Option Nat
  | .valid g => some g
  | .invalid => none
  | .inWrite => none

/-- The newest copy and the newest generation (R168). -/
def Store.newest (s : Store) : Option (Copy × Nat) :=
  match s.copyA.gen?, s.copyB.gen? with
  | some x, some y => if x < y then some (.b, y) else some (.a, x)
  | some x, none => some (.a, x)
  | none, some y => some (.b, y)
  | none, none => none

/-- GEN_L and GEN_H (R168): 0 when neither copy is VALID. -/
def Store.newestGen (s : Store) : Nat :=
  match s.newest with
  | some (_, g) => g
  | none => 0

/-- The copy a commit writes: the one that is not the newest (R168, R170). -/
def Store.target (s : Store) : Copy :=
  match s.newest with
  | some (.a, _) => .b
  | some (.b, _) => .a
  | none => .a

/-- A FLUSH is ACTIVE (R44). -/
def Cmd.flushActive (c : Cmd) : Bool := c.tags.any (fun r => r.op == some .flush && r.st == .active)

/-- Destage is URGENT (R44). -/
def State.urgent (s : State) : Bool :=
  decide (s.buf.highWater ≤ s.buf.workCount) || s.cmd.flushActive || s.store.run == .quiesce

/-- The slot the block at a READ port claims (R88). -/
def State.claimAt (s : State) (b : Binding) : Option SlotIx :=
  ((s.cmd.tag b.tag).claims.find? (·.1 == b.block)).map (·.2)

/-- CLEAN, DIRTY, WRITING or PINNED (R88). -/
def SlotState.holdsData : SlotState → Bool
  | .clean | .dirty | .writing | .pinned => true
  | .free | .filling | .loading => false

/-- The slot a READ port moves words from, if its block is deliverable (R88). -/
def State.deliverable (s : State) (b : Binding) : Option SlotIx :=
  (s.claimAt b).filter (fun i => (s.buf.slot i).st.holdsData)

/-- The FILLING slot of a tag (R34). -/
def Buf.fillingOf (b : Buf) (t : Tag) : Option SlotIx :=
  b.slots.findIdx? (fun x => x.st == .filling && x.owner == some (.tag t))

/-- The slot a WRITE port moves words into, if the port is READY (R89). -/
def State.fillable (s : State) (b : Binding) : Option SlotIx :=
  (s.buf.fillingOf b.tag).filter (fun _ => decide (s.owedBlocks b.tag < 2))

/-- The slot a bound port can move a word of now (R88, R89). -/
def State.slotAt (s : State) (b : Binding) : Option SlotIx :=
  match b.dir with
  | .read => s.deliverable b
  | .write => s.fillable b

/-- State of a port: 0 UNBOUND, 1 WAIT, 2 READY (R84). -/
def State.portState (s : State) (p : Port) : Nat :=
  match p.bound with
  | none => 0
  | some b => if (s.slotAt b).isSome then 2 else 1

/-- Port attention (R96). -/
def State.attention (s : State) (p : Port) : Bool :=
  s.portState p == 2 && p.bound.any (·.word == 0)

/-- P0_STAT and P1_STAT (Table 10-8). -/
def State.statWord (s : State) (p : Port) : Word :=
  match p.bound with
  | none => packWord [(flagNat p.empty, 6)]
  | some b =>
    packWord [(s.portState p, 0), (match b.dir with | .read => 0 | .write => 1, 2), (b.tag % 8, 3),
      (flagNat p.empty, 6), (flagNat (s.attention p), 7), (b.word % 256, 8)]

/-- CONTROL as read (Table 10-2). -/
def State.controlWord (s : State) : Word :=
  packWord [(flagNat s.bus.stageEn, 0), (flagNat s.patrol.enabled, 1), (flagNat s.bus.patrolCont, 2),
    (flagNat s.bus.reportIe, 3), (flagNat s.bus.portIe, 4), (flagNat (s.store.run == .quiesce), 5),
    (flagNat s.bus.discard, 6)]

/-- STATUS as read (Table 10-3). -/
def State.statusWord (s : State) : Word :=
  packWord [(runCode s.store.run, 0), (gateCode s.gate.st, 3), (flagNat s.store.dirty, 5),
    (flagNat s.store.commitBusy, 6), (flagNat s.store.atRisk, 7), (flagNat s.buf.throughForced, 8),
    (flagNat s.patrol.active, 9), (flagNat s.rep.noticeLost, 10), (flagNat s.cmd.abortRefused, 11),
    (flagNat s.gate.refused, 12), (flagNat s.patrol.badWindow, 13)]

/-- INT_N is asserted (R194; log 27). -/
def State.intAsserted (s : State) : Bool :=
  !s.bus.resetLow &&
    ((s.bus.reportIe && !s.rep.recs.isEmpty)
      || (s.bus.portIe && (s.attention s.ports.p0 || s.attention s.ports.p1)))

end Sys2Proof.Machine
end

