-- ==== Sys2Proof/Machine/Staging.lean ====
section
/-! DEFINITION. Machine/Staging.lean: fill completion, the slot allocator, loads, write jobs, destage and flush sets
(chapter 2). -/

namespace Sys2Proof.Machine

open Sys2Proof

/-! ## Fill completion (R35 to R38) -/

/-- The load of slot i is withdrawn (R42): its waiting job goes, and on the link it loses its owner. -/
def Ev.withdrawLoad (e : Ev) (i : SlotIx) : Ev :=
  { e with
    media.hostQ := e.media.hostQ.filter (fun j => !(j.kind == .read && j.place == some (.slot i)))
    media.link := e.media.link.map (fun o =>
      if o.job.any (fun j => j.cls == .host && j.kind == .read && j.place == some (.slot i)) then
        { o with orphan := some .applyNothing }
      else o) }

/-- What becomes of the slot that was current for LBA n (R37). -/
def Ev.replacePrevious (e : Ev) (n : Lba) : Ev :=
  match e.buf.lookup n with
  | none => e
  | some i =>
    match (e.buf.slot i).st with
    | .dirty | .clean | .pinned => e.freeSlot i
    | .writing => e.setSlot i { e.buf.slot i with superseded := true }
    | .loading => (e.freeSlot i).withdrawLoad i
    | .free | .filling => e

/-- The block goes write-through (R35). -/
def State.goesThrough (s : State) (t : Tag) : Bool :=
  !s.bus.stageEn || (s.cmd.tag t).through || s.buf.throughForced

/-- Fill completion of slot i of tag t (R35 to R38). The test is made before the previous slot is dealt with (R197). -/
def Ev.fillComplete (e : Ev) (t : Tag) (i : SlotIx) : Ev :=
  let x := e.buf.slot i
  let e1 := e.replacePrevious (x.lba.getD 0)
  if e.goesThrough t then e1.setSlot i { x with st := .writing, owner := some (.tag t) }
  else (e1.setSlot i { x with st := .dirty, owner := none }).blockDone t

/-- The request of a WRITE for its block k (R32, R66). -/
def Ev.fillRequest (e : Ev) (t : Tag) (k : Nat) : Ev :=
  { e with buf.allocQ := e.buf.allocQ ++ [{ tag := t, kind := .fill, lba := (e.cmd.tag t).lba + k, block := k }] }

/-! ## Reads (R40 to R42) -/

/-- The lookup of block k of a READ (R40). -/
def Ev.lookupBlock (e : Ev) (t : Tag) (k : Nat) : Ev :=
  let n := (e.cmd.tag t).lba + k
  let e1 := e.setTag t { e.cmd.tag t with looked := k + 1 }
  match e.buf.lookup n with
  | some i => e1.claim t k i
  | none => { e1 with buf.allocQ := e1.buf.allocQ ++ [{ tag := t, kind := .load, lba := n, block := k }] }

/-- The tag of a port whose next lookup is due (R92). -/
def State.lookupDue (s : State) (p : Port) : Option Tag :=
  match p.bound with
  | some b =>
    if b.dir = .read && (s.cmd.tag b.tag).looked < min (s.cmd.tag b.tag).count (b.block + 3)
        && !s.buf.allocQ.any (·.tag == b.tag) then some b.tag
    else none
  | none => none

/-- A lookup of the read lookahead (R92). Where those of both ports are due, P0's is made first (log 2: the model's choice). -/
def Ev.readLookup? (e : Ev) : Option Ev :=
  ((e.toState.lookupDue e.ports.p0).orElse (fun _ => e.toState.lookupDue e.ports.p1)).map
    (fun t => e.lookupBlock t (e.cmd.tag t).looked)

/-- The words of a block on the link. -/
def blockToWords : BlockData → List Word
  | .words w => w
  | .table img k => (List.range Config.blockWords).map (Config.imageWord img k)

/-- The words of a GOOD load are placed in its slot (R114). -/
def Ev.placeLoad (e : Ev) (i : SlotIx) (d : BlockData) : Ev :=
  if (e.buf.slot i).st = .loading then e.setSlot i { e.buf.slot i with data := blockToWords d } else e

/-- A load ends GOOD (R41). -/
def Ev.loadGood (e : Ev) (i : SlotIx) : Ev :=
  if (e.buf.slot i).st = .loading then e.setSlot i { e.buf.slot i with st := .clean, owner := none } else e

/-- A load of LBA n ends UNRECOVERED (R41, R42, R65). The READs that it fails release their other claims command by command,
in acceptance order (log 12: the model's choice). -/
def Ev.loadFailed (e : Ev) (i : SlotIx) (n : Lba) : Ev :=
  let ts := e.cmd.claimants i
  let e1 := if ts.isEmpty then e else e.suspectAdd n .host
  (ts.foldl (fun e t => e.readFails t .readFailed n) e1).freeClaimed i

/-! ## The slot allocator (R32, R33) -/

/-- The slot step 1 or 2 of R33 gives. -/
def Buf.provides (b : Buf) : Option SlotIx :=
  match b.slots.findIdx? (·.st == .free) with
  | some i => some i
  | none => b.clean.head?

/-- A request is served with slot i (R33). -/
def Ev.serveWith (e : Ev) (q : AllocReq) (i : SlotIx) : Ev :=
  let e1 := e.freeSlot i
  match q.kind with
  | .fill => e1.setSlot i { Slot.empty with st := .filling, lba := some q.lba, owner := some (.tag q.tag) }
  | .load =>
    if e.gate.st = .latched then e1.readFails q.tag .mediaUnavailable q.lba
    else
      let e2 := e1.setSlot i { Slot.empty with st := .loading, lba := some q.lba, owner := some (.tag q.tag) }
      (e2.claim q.tag q.block i).addJob (newJob .host (.tag q.tag) .read (.lba q.lba) (some (.slot i)))

/-- SLOT_ALLOCATION: the head request is served, if a slot can be provided (R33; log 18). -/
def Ev.slotAlloc? (e : Ev) : Option Ev :=
  match e.buf.allocQ, e.buf.provides with
  | q :: rest, some i =>
    let e1 : Ev := { e with buf.allocQ := rest }
    match q.kind, e.buf.lookup q.lba with
    | .load, some k => some (e1.claim q.tag q.block k)
    | _, _ => some (e1.serveWith q i)
  | _, _ => none

/-! ## Write jobs (R38, R39, R43, R45) -/

/-- A write-through slot whose job can be created now (R38). -/
def State.wtReady (s : State) (i : SlotIx) : Bool :=
  match (s.buf.slot i).st, (s.buf.slot i).owner, (s.buf.slot i).lba with
  | .writing, some (.tag _), some n => !s.jobOfSlot i && !s.held n && !s.writeJobOf n
  | _, _, _ => false

/-- A write-through job of slot i is created, or fails its command under a LATCHED gate as a latch does (R38, R130). -/
def Ev.wtMake (e : Ev) (i : SlotIx) : Ev :=
  match (e.buf.slot i).owner, (e.buf.slot i).lba with
  | some (.tag t), some n =>
    if e.gate.st = .latched then e.writeLatched t n
    else e.addJob (newJob .host (.tag t) .write (.lba n) (some (.slot i)))
  | _, _ => e

/-- WRITE_THROUGH_JOB_CREATE (R38). -/
def Ev.wtCreate? (e : Ev) : Option Ev :=
  ((List.range e.buf.slots.length).find? e.toState.wtReady).map e.wtMake

/-- A DIRTY slot destage may write now (R43). -/
def State.offerable (s : State) (i : SlotIx) : Bool :=
  match (s.buf.slot i).lba with
  | some n => !s.held n && !s.writeJobOf n
  | none => false

/-- Destage offers slot i (R43). -/
def Ev.offer (e : Ev) (i : SlotIx) : Ev :=
  (e.setSlot i { e.buf.slot i with st := .writing, owner := none, superseded := false }).addJob
    (newJob .destage .staging .write (.lba ((e.buf.slot i).lba.getD 0)) (some (.slot i)))

/-- DESTAGE_OFFER (R43). -/
def Ev.destageOffer? (e : Ev) : Option Ev :=
  if e.toState.destageJob || decide (Config.repairPlaces ≤ e.rpr.queue.length) then none
  else (e.buf.destage.find? e.toState.offerable).map e.offer

/-- A write job of slot i has ended GOOD (R39, R45). -/
def Ev.writeJobGood (e : Ev) (i : SlotIx) (o : JobOwner) : Ev :=
  let e1 := e.slotWritten i
  let e2 := match o with
    | .tag t => e1.writeEnded 0 t
    | .staging | .repair | .patrol | .store => e1
  e2.repairWake

/-- A write job of slot i and LBA n has ended in a fault (R39, R45, R135). -/
def Ev.writeJobFault (e : Ev) (i : SlotIx) (n : Lba) (o : JobOwner) : Ev :=
  Ev.remapRequest (e.setSlot i { e.buf.slot i with owner := some .repair }) n i
    (match o with
    | .tag t => some t
    | .staging | .repair | .patrol | .store => none)

/-! ## Flush sets (R49, R50) -/

/-- The set of a FLUSH accepted now (R49). -/
def Buf.flushSet (b : Buf) (t : Tag) : FlushSet :=
  { tag := t, slots := b.slotsWith Slot.inWork, pinned := decide (0 < b.pinnedCount) }

/-- The set of a FLUSH is removed (R50). -/
def Ev.dropSet (e : Ev) (t : Tag) : Ev := { e with buf.flush := e.buf.flush.filter (·.tag != t) }

/-- FLUSH_COMPLETE (R50): the first ACTIVE FLUSH whose set is empty. -/
def Ev.flushComplete? (e : Ev) : Option Ev :=
  (e.buf.flush.find? (fun f => f.slots.isEmpty && e.cmd.isAt f.tag .flush .active)).map (fun f =>
    (e.dropSet f.tag).completeAfter e.flushKey f.tag (if f.pinned then .pinnedPresent else .good) 0)

end Sys2Proof.Machine
end

