-- ==== Sys2Proof/WellFormed.lean ====
section
/-! DEFINITION. WellFormed.lean: which commands are the event their row names. -/

namespace Sys2Proof

/-- The fields a response brings fit Table 5-1: a level from 0 to 7, and a block of 256 words. -/
def BlockData.wf : BlockData → Bool
  | .words w => w.length == Config.blockWords
  | .table _ k => decide (k < Config.copyBlocks)

/-- The ranges of Table 5-1. -/
def Body.wf : Body → Bool
  | .goodRead level data => decide (level ≤ 7) && data.wf
  | .goodVerify level => decide (level ≤ 7)
  | .goodWrite => true
  | .goodIdentify _ _ => true
  | .unrecovered => true
  | .writeFault => true
  | .unitFault => true

/-- The word addresses whose registers have a row of their own in the table: a REGISTER_WRITE is a write of any other
address (R185). CONTROL (0) may be written by it with no request in the word. -/
def ownRow (a : BitVec 6) : Bool :=
  [1, 6, 8, 13, 14, 15, 16, 17, 25, 26, 27, 28, 29, 30, 31, 32, 33, 36, 37].contains a.toNat

/-- A write of CONTROL that makes none of the requests of bits 5, 6 and 7 (R187). -/
def noControlRequest (v : Word) : Bool :=
  !v.getLsbD 5 && !v.getLsbD 6 && !v.getLsbD 7

/-- Which commands are the event their row names. exec has a meaning for every term all the same (log 21). -/
def Instr.wf : Instr → Bool
  | .badOpcode v => v == 0 || decide (8 < v.toNat)
  | .gateReopen v => v.getLsbD 7
  | .patrolEnable v => v.getLsbD 1
  | .patrolDisable v => !v.getLsbD 1
  | .softReset v => v.getLsbD 5
  | .discard v => v.getLsbD 6
  | .registerWrite a v => !ownRow a && (a != 0 || noControlRequest v)
  | .responseFrame f => f.body.wf
  | .powerOn | .resetLineAssert | .resetLineRelease => true
  | .read | .write | .verify | .flush | .relocate | .releasePinned | .clearSuspect | .prepare => true
  | .abort _ | .reportPop _ | .dataRead _ | .dataWrite _ _ | .statWrite _ _ | .statusWrite _ | .lostBlocksWrite _ => true
  | .mediaCfgWrite _ | .gateCfgWrite _ | .stageCfgWrite _ | .patrolCfgWrite _ => true
  | .patrolWindowWrite _ _ | .tableViewSelect _ _ | .tableD0Read | .wideLowRead _ => true
  | .opTimerExpiry | .identifyRetryExpiry | .faultLineAssert | .faultLineRelease => true
  | .filterWidthExpiry | .holdTimerExpiry | .commitRetryExpiry | .patrolIntervalExpiry => true
  | .opIssue | .commitStart | .quiesceEnd | .slotAllocation | .portBinding | .destageOffer => true
  | .writeThroughJobCreate | .commandStart | .repairActivation | .admissionWaitServe | .patrolResume => true
  | .flushComplete => true

end Sys2Proof
end

