-- ==== Sys2Proof/Machine/Link.lean ====
section
/-! DEFINITION. Machine/Link.lean: the link, the arbiter and the issue of ops, IDENTIFY, and the tests of levels and
retries (chapter 5). -/

namespace Sys2Proof.Machine

open Sys2Proof

/-! ## IDENTIFY (R103) -/

/-- An IDENTIFY is issued and the retry timer starts (R103). -/
def Media.identify (m : Media) : Media :=
  { m with
    link := some { seq := m.seq, op := .identify, job := none, orphan := none }
    tx := some { seq := m.seq, op := .identify, pba := 0, data := none }
    seq := m.seq + 1
    identTimer := true }

/-! ## The arbiter (R106, R107) -/

/-- Table 5-4. -/
def RunState.issues (r : RunState) (j : Job) : Bool :=
  match r with
  | .starting | .unitRejected => false
  | .loading | .unprepared => j.cls == .table
  | .ready => true
  | .quiesce =>
    match j.cls with
    | .table | .destage | .repair => true
    | .host => j.owner == .staging
    | .patrol => false

/-- The repair queue holds fewer than 8 entries (R107). -/
def State.placeOpen (s : State) : Bool := decide (s.rpr.queue.length < Config.repairPlaces)

/-- A write job of an LBA: destage or write-through (R107, R115). -/
def Job.isLbaWrite (j : Job) : Bool := j.kind == .write && (j.cls == .host || j.cls == .destage)

/-- A WAITING job is eligible (R107). -/
def State.eligible (s : State) (j : Job) : Bool := s.store.run.issues j && (!j.isLbaWrite || s.placeOpen)

/-- The lists in the order of their classes; the destage list stands third while it is URGENT and fifth otherwise
(R105, R106). -/
def State.classLists (s : State) : List (List Job) :=
  [s.media.tableQ, s.media.hostQ, if s.urgent then s.media.destageQ else [], s.media.repairQ, s.media.destageQ,
    s.media.patrolQ]

/-- The job the arbiter chooses (R106). -/
def State.choice (s : State) : Option Job := s.classLists.findSome? (fun l => l.find? s.eligible)

/-- A WAITING job of a class above PATROL is eligible (R160, R161). -/
def State.higherWork (s : State) : Bool :=
  (s.media.tableQ ++ s.media.hostQ ++ s.media.destageQ ++ s.media.repairQ).any s.eligible

/-! ## Issue (R108) -/

/-- A job leaves its list. -/
def Media.takeJob (m : Media) (j : Job) : Media :=
  match j.cls with
  | .table => { m with tableQ := m.tableQ.erase j }
  | .host => { m with hostQ := m.hostQ.erase j }
  | .destage => { m with destageQ := m.destageQ.erase j }
  | .repair => { m with repairQ := m.repairQ.erase j }
  | .patrol => { m with patrolQ := m.patrolQ.erase j }

/-- The op sent for a job (R108). -/
def Job.opOf (j : Job) : LinkOp :=
  match j.kind, j.phase with
  | .read, _ => .read
  | .verify, _ => .verify
  | .write, .write => .write
  | .write, .verify => .verify

/-- The PBA of a job's op, translated now (R2, R108). -/
def State.pbaOf (s : State) (j : Job) : Pba :=
  match j.target with
  | .lba n => s.trans.translate n
  | .pba p => p

/-- The data of a WRITE, from the job's data place (R99). -/
def State.placeData (s : State) (j : Job) : BlockData :=
  match j.place with
  | some (.slot i) => .words (s.buf.slot i).data
  | some .repairBuf => .words s.rpr.buf
  | some (.image k) => s.store.staging.getD k (.words [])
  | none => .words []

/-- The verify decision at the first issue of a write job's WRITE (R17, R108). -/
def State.decided (s : State) (j : Job) : Job :=
  match j.target, j.verifyDecision with
  | .lba n, none => if j.isLbaWrite then { j with verifyDecision := some (s.trans.suspect n) } else j
  | _, _ => j

/-- The steps of an issue (R108), and the patrol block under way (R156). -/
def Ev.issue (e : Ev) (j : Job) : Ev :=
  let j1 := e.toState.decided j
  let m := e.media.takeJob j
  { e with
    media := { m with
      link := some { seq := m.seq, op := j1.opOf, job := some j1, orphan := none }
      tx := some { seq := m.seq, op := j1.opOf, pba := e.toState.pbaOf j1,
                   data := if j1.opOf = .write then some (e.toState.placeData j1) else none }
      seq := m.seq + 1
      opTimer := some (m.opTimeout * 10) }
    patrol.st := if j.owner = .patrol ∧ e.patrol.st = .pending then .running else e.patrol.st }

/-- OP_ISSUE: the arbiter chooses, when the link is idle and the gate OPEN (R106). -/
def Ev.opIssue? (e : Ev) : Option Ev :=
  if e.media.link.isNone && e.gate.st == .opened then e.toState.choice.map e.issue else none

/-! ## Responses (R100, R109, R110) -/

/-- The outcome and its fields fit the op (Table 5-1). -/
def fits : Body → LinkOp → Bool
  | .goodRead level data, .read => decide (level ≤ 7) && data.wf
  | .goodVerify level, .verify => decide (level ≤ 7)
  | .goodWrite, .write => true
  | .goodIdentify _ _, .identify => true
  | .unrecovered, .read => true
  | .unrecovered, .verify => true
  | .writeFault, .write => true
  | .unitFault, _ => true
  | _, _ => false

/-- The outstanding op a response is matched with (R100). -/
def Media.matched (m : Media) (f : Response) : Option Outstanding :=
  m.link.filter (fun o => o.seq == f.seq && fits f.body o.op)

/-- The effective level (R110). -/
def Job.effective (j : Job) (level : Nat) : Nat := if j.attempts = 0 then level else 7

/-- A level is a pass (R110). -/
def Media.passes (m : Media) (level : Nat) : Bool := m.relocLevel == 8 || decide (level < m.relocLevel)

/-- What a response means to its job: final GOOD with its pass and data, final failure, or a retry (R109, R110). -/
inductive JobOutcome where
  | good (pass : Bool) (data : BlockData)
  | failed
  | retry (j : Job)
deriving DecidableEq, Repr

/-- The outcome of a response for its job. A GOOD that carries no level passes. -/
def Media.outcome (m : Media) (j : Job) : Body → JobOutcome
  | .goodRead level data => .good (m.passes (j.effective level)) data
  | .goodVerify level => .good (m.passes (j.effective level)) (.words [])
  | .goodWrite => .good true (.words [])
  | .goodIdentify _ _ => .good true (.words [])
  | .writeFault => .failed
  | .unitFault => .failed
  | .unrecovered =>
    if j.attempts + 1 ≤ m.readRetries then .retry { j with attempts := j.attempts + 1 } else .failed

/-- The level tests of a GOOD host or patrol outcome (R112, steps 2 and 3). -/
def Ev.levelTests (e : Ev) (n : Lba) (pass : Bool) : Ev :=
  if pass then e.suspectClear n .readGood else e.relocateRequest n

end Sys2Proof.Machine
end

