-- ==== Sys2Proof/Machine/Patrol.lean ====
section
/-! DEFINITION. Machine/Patrol.lean: the patrol walk (chapter 8). -/

namespace Sys2Proof.Machine

open Sys2Proof

/-- Patrol OFF, with timer, burst count and restart cleared (R156, R164, R165). -/
def Patrol.toOff (p : Patrol) : Patrol :=
  { p with st := .off, burstLeft := 0, finishing := false, restart := false, timer := none }

/-- The interval begins (R160). -/
def Patrol.toInterval (p : Patrol) : Patrol :=
  { p with st := .interval, burstLeft := 0, timer := some p.interval }

/-- POS and the burst count move past a block (R158, R159). -/
def Patrol.passBlock (p : Patrol) : Patrol := { p with pos := p.pos + 1, burstLeft := p.burstLeft - 1 }

/-- The VERIFY of the block at POS is created and the unit is PENDING (R158). -/
def Ev.patrolJob (e : Ev) : Ev :=
  Ev.addJob { e with patrol.st := .pending } (newJob .patrol .patrol .verify (.lba e.patrol.pos) none)

/-- What the between-block tests answer: the unit rests, or the block at POS is taken next. -/
inductive Between where
  | rest (e : Ev)
  | take (e : Ev)

/-- A burst ends: the interval timer starts, or, with INTERVAL 0, a new burst begins (R160). -/
def Ev.burstEnds (e : Ev) : Between :=
  if e.patrol.interval = 0 then .take { e with patrol.burstLeft := e.patrol.burst }
  else .rest { e with patrol := e.patrol.toInterval }

/-- The end of a pass (R162, R163). -/
def Ev.passEnds (e : Ev) : Between :=
  let e1 := e.notice (.patrolPassDone e.patrol.last)
  if e1.bus.patrolCont then Ev.burstEnds { e1 with patrol.pos := e1.patrol.first }
  else .rest { e1 with patrol := e1.patrol.toOff }

/-- The tests between two blocks, in their order (R160). -/
def Ev.between (e : Ev) : Between :=
  if e.patrol.last < e.patrol.pos then e.passEnds
  else if e.patrol.burstLeft = 0 then e.burstEnds
  else if e.toState.higherWork then .rest { e with patrol.st := .suspended }
  else .take e

/-- Blocks are taken: a held one is skipped, with the between-block tests after it, and another gets its job (R158). A walk
that has skipped as many held blocks in one event as the fuel allows pauses as SUSPENDED at the block it would take next
(log 15). -/
def Ev.patrolWalk (fuel : Nat) (e : Ev) : Ev :=
  match fuel with
  | 0 => { e with patrol.st := .suspended, paused := true }
  | k + 1 =>
    if e.held e.patrol.pos then
      match Ev.between { e with patrol := e.patrol.passBlock } with
      | .rest e1 => e1
      | .take e1 => Ev.patrolWalk k e1
    else e.patrolJob

/-- The block at POS is taken (R158). -/
def Ev.patrolTake (e : Ev) : Ev := e.patrolWalk Config.patrolChain

/-- The unit goes on after a block (R160). -/
def Ev.patrolNext (e : Ev) : Ev :=
  match e.between with
  | .rest e1 => e1
  | .take e1 => e1.patrolTake

/-- A unit that rested goes on: the block at POS is taken (R158). With POS above END, which only a late answer can leave, the
pass has ended instead: R160 and R161 do not name that case (log 16: the model's choice). -/
def Ev.patrolGoOn (e : Ev) : Ev := if e.patrol.last < e.patrol.pos then e.patrolNext else e.patrolTake

/-- A burst begins at POS (R157, R164). -/
def Ev.patrolBurst (e : Ev) : Ev := Ev.patrolTake { e with patrol.burstLeft := e.patrol.burst, patrol.timer := none }

/-- The RUNNING block has its final outcome (R159), or finishes after a disable (R164). -/
def Ev.patrolEnded (e : Ev) : Ev :=
  let e1 : Ev := { e with patrol := e.patrol.passBlock }
  if e1.patrol.finishing then
    if e1.patrol.restart then
      Ev.patrolBurst { e1 with patrol.finishing := false, patrol.restart := false, patrol.pos := e1.patrol.first }
    else
      let e2 := if e1.patrol.last < e1.patrol.pos then e1.notice (.patrolPassDone e1.patrol.last) else e1
      { e2 with patrol := e2.patrol.toOff }
  else e1.patrolNext

/-- The effects of a patrol outcome on the suspect list and the repair queue (Table 8-3). -/
def Ev.patrolApply (e : Ev) (n : Lba) : JobOutcome → Ev
  | .good pass _ => e.levelTests n pass
  | .failed => e.suspectAdd n .patrol
  | .retry _ => e

/-- The response of a patrol VERIFY that was on the link at the entry to QUIESCE: an outcome is applied and POS rises by 1,
whatever has become of the unit since (R165; log 16). -/
def Ev.patrolLate (e : Ev) (n : Lba) (o : JobOutcome) : Ev :=
  match o with
  | .retry _ => e
  | .good _ _ | .failed =>
    let e1 := e.patrolApply n o
    { e1 with patrol.pos := e1.patrol.pos + 1 }

/-- PATROL_RESUME (R161). -/
def Ev.patrolResume? (e : Ev) : Option Ev :=
  if e.patrol.st == .suspended && !e.paused && e.store.run == .ready && !e.toState.higherWork then some e.patrolGoOn
  else none

/-- The interval timer expires (R160). -/
def Ev.intervalExpires (e : Ev) : Ev :=
  if e.patrol.st == .interval && e.patrol.timer.isSome then
    Ev.patrolGoOn { e with patrol.burstLeft := e.patrol.burst, patrol.timer := none }
  else e

/-- The window is usable (R155, R157). -/
def State.windowOk (s : State) : Bool :=
  decide (s.patrol.first ≤ s.patrol.last) && decide (s.patrol.last < s.trans.blocks)

/-- An enable request (R157, R164). -/
def Ev.patrolEnable (e : Ev) : Ev :=
  if e.store.run = .ready && e.store.prep.isNone then
    if e.toState.windowOk then
      if e.patrol.st = .running then { e with patrol.restart := true }
      else Ev.patrolBurst { e with patrol.pos := e.patrol.first }
    else { e with patrol.badWindow := true }
  else e

/-- A disable (R164). -/
def Ev.patrolDisable (e : Ev) : Ev :=
  if e.patrol.st = .running then { e with patrol.finishing := true, patrol.restart := false }
  else { e with patrol := e.patrol.toOff, media.patrolQ := [] }

/-- A patrol op on the link becomes an op of another kind of ending (R164, R165). -/
def Media.detachPatrol (m : Media) (o : Orphan) (all : Bool) : Media :=
  { m with link := m.link.map (fun x =>
      if x.job.any (·.owner == .patrol) && (all || x.orphan.isNone) then { x with orphan := some o } else x) }

/-- Patrol goes OFF at the acceptance of a PREPARE (R164). -/
def Ev.patrolOffPrepare (e : Ev) : Ev :=
  { e with patrol := e.patrol.toOff, media := { e.media.detachPatrol .applyNothing true with patrolQ := [] } }

/-- Patrol goes OFF at the entry to QUIESCE (R165). -/
def Ev.patrolOffQuiesce (e : Ev) : Ev :=
  { e with patrol := e.patrol.toOff, media := { e.media.detachPatrol .patrolQuiesce false with patrolQ := [] } }

end Sys2Proof.Machine
end

