-- ==== Sys2Proof/Machine/Store.lean ====
section
/-! DEFINITION. Machine/Store.lean: images, commits, the start-up load and PREPARE (chapter 9). -/

namespace Sys2Proof.Machine

open Sys2Proof

/-! ## Images (R166, R167) -/

/-- P as the part holds it. -/
def Media.capacity (m : Media) : Nat := m.cap.getD 0

/-- A RESERVED spare is saved as FREE (R12, R166). -/
def SpareState.saved : SpareState → SpareState
  | .free | .reserved => .free
  | .mapped => .mapped
  | .retired => .retired

/-- The image of the tables as they stand, with a generation (R170). -/
def Trans.image (t : Trans) (p g : Nat) : Image :=
  { p := p, s := t.spareCount, l := t.blocks, gen := g, remap := t.remap, spares := t.spares.map SpareState.saved,
    suspects := t.suspects }

/-- The eight blocks of an image (R166). -/
def imageBlocks (img : Image) : List BlockData := (List.range Config.copyBlocks).map (BlockData.table img)

/-- The image whose eight blocks were read; none when they fail the check code (R166, R167 test 2). -/
def imageOf (l : List BlockData) : Option Image :=
  match l with
  | .table img _ :: _ => if l = imageBlocks img then some img else none
  | .words _ :: _ => none
  | [] => none

/-- Strictly ascending LBA order (R4). -/
def ascending : List RemapEntry → Bool
  | [] => true
  | [_] => true
  | x :: y :: l => decide (x.lba < y.lba) && ascending (y :: l)

/-- Tests 4 to 8 of R167. -/
def imageSound (img : Image) : Bool :=
  decide (16 ≤ img.s) && decide (img.s ≤ 256) && (img.l + img.s + 16 == img.p)
    && decide (1 ≤ img.gen) && decide (img.gen ≤ Config.lastGeneration)
    && decide (img.remap.length ≤ img.s) && ascending img.remap
    && img.remap.all (fun r => decide (r.lba < img.l) && decide (r.spare < img.s))
    && decide ((img.remap.map (·.spare)).Nodup)
    && (img.spares.length == img.s)
    && img.remap.all (fun r => img.spares[r.spare]? == some .mapped)
    && (List.range img.s).all (fun i => img.spares[i]? != some .mapped || img.remap.any (·.spare == i))
    && img.spares.all (· != .reserved)
    && decide (img.suspects.length ≤ Config.suspectPlaces) && img.suspects.all (fun x => decide (x.lba < img.l))
    && decide ((img.suspects.map (·.lba)).Nodup)

/-- The image of a copy read in full, if it passes every test but perhaps that of the capacity (R167). -/
def readImage (l : List BlockData) : Option Image := (imageOf l).filter imageSound

/-! ## TABLE jobs -/

/-- The WRITE of block k of a copy (R170, R180). -/
def Ev.tableWrite (e : Ev) (c : Copy) (k : Nat) : Ev :=
  e.addJob (newJob .table .store .write (.pba (copyBlock e.media.capacity c k)) (some (.image k)))

/-- The READ of block k of a copy (R177). -/
def Ev.tableRead (e : Ev) (c : Copy) (k : Nat) : Ev :=
  e.addJob (newJob .table .store .read (.pba (copyBlock e.media.capacity c k)) (some (.image k)))

/-! ## Commits (R170 to R174) -/

/-- A commit may start (R170). -/
def State.commitDue (s : State) : Bool :=
  s.store.dirty && s.store.commit.isNone && s.store.prep.isNone
    && (s.store.run == .ready || (s.store.run == .quiesce && !s.store.discarded))
    && !s.store.retryTimer && decide (s.store.newestGen < Config.lastGeneration)

/-- The active repair in COMMIT_WAIT, whose update stands in the snapshot of the commit that starts: it waits for the end of
that commit (R146, R172, R173; log 31, since R170 says that it does not wait for this commit). -/
def Rpr.cover (r : Rpr) : Rpr :=
  { r with active := r.active.map (fun a => if a.step = .commitWait then { a with covered := true } else a) }

/-- The starting event of a commit (R170). -/
def Ev.commitStart (e : Ev) : Ev :=
  let g := e.store.newestGen + 1
  let c := e.store.target
  Ev.tableWrite
    { e with
      store := { e.store.setCopy c .inWrite with
        staging := imageBlocks (e.trans.image e.media.capacity g)
        dirty := false
        commit := some { target := c, gen := g, block := 0 } }
      rpr := e.rpr.cover }
    c 0

/-- COMMIT_START (R170). -/
def Ev.commitStart? (e : Ev) : Option Ev := if e.toState.commitDue then some e.commitStart else none

/-- A repair in COMMIT_WAIT ends when wait says so of its record (R146). -/
def Ev.endCommitWait (e : Ev) (wait : ActiveRepair → Bool) : Ev :=
  match e.rpr.queue, e.rpr.active with
  | x :: _, some a => if a.step = .commitWait && wait a then e.repairMapped x else e
  | _, _ => e

/-- A commit ends with all writes GOOD (R172). -/
def Ev.commitGood (e : Ev) (c : Commit) : Ev :=
  let e1 : Ev := { e with store := { e.store.setCopy c.target (.valid c.gen) with commit := none, atRisk := false } }
  (e1.notice (.tableCommitted c.gen c.target)).endCommitWait (·.covered)

/-- A commit ends by a write fault (R173). -/
def Ev.commitFault (e : Ev) (c : Commit) : Ev :=
  let e1 : Ev :=
    { e with store := { e.store.setCopy c.target .invalid with
        commit := none, dirty := true, atRisk := true, retryTimer := true } }
  (e1.notice (.tableCommitFailed c.target)).endCommitWait (·.covered)

/-- Commits are stopped by the generation limit while a change waits (R146, R174). -/
def State.limitStands (s : State) : Bool :=
  s.store.dirty && decide (Config.lastGeneration ≤ s.store.newestGen)

/-- The active repair stands in COMMIT_WAIT. -/
def Rpr.waitsForCommit (r : Rpr) : Bool := !r.queue.isEmpty && r.active.any (·.step == .commitWait)

/-- At the generation limit TABLE_AT_RISK is set (R174) and a repair in COMMIT_WAIT is released (R146). -/
def Ev.genLimit? (e : Ev) : Option Ev :=
  if e.toState.limitStands then
    if e.store.atRisk then
      if e.store.commit.isNone && e.rpr.waitsForCommit then some (e.endCommitWait (fun _ => true)) else none
    else some { e with store.atRisk := true }
  else none

/-! ## PREPARE (R179, R180) -/

/-- The image of one copy of a PREPARE (R180). -/
def Ev.prepareCopy (e : Ev) (c : Copy) (g : Nat) (a : Bool) : Ev :=
  Ev.tableWrite
    { e with store := { e.store.setCopy c .inWrite with
        staging := imageBlocks (e.trans.image e.media.capacity g)
        prep := some { copy := c, block := 0, aValid := a } } }
    c 0

/-- The activation of a PREPARE with spare count s (R179). -/
def Ev.prepareBegin (e : Ev) (s : Nat) : Ev :=
  let e1 := e.patrolOffPrepare
  let e2 := (e1.buf.slotsWith (·.st == .clean)).foldl Ev.freeSlot e1
  Ev.prepareCopy
    { e2 with
      trans := e2.trans.prepared e2.media.capacity s
      store := { e2.store with dirty := false, atRisk := false, retryTimer := false, copyA := .invalid,
                               copyB := .invalid } }
    .a 1 false

/-- The run state a PREPARE ends in: at once, or, in QUIESCE, as the return state (R180, R181). -/
def Store.runsIn (s : Store) (r : RunState) : Store :=
  if s.run = .quiesce then { s with ret := some r } else { s with run := r }

/-- The effects of Table 9-3 on the run state, the flags, S, L and the spares; the copies' statuses are set before. -/
def Ev.prepareEnds (e : Ev) (a b : Bool) : Ev :=
  if a || b then
    Ev.spareLowOnTables
      { e with store := { e.store.runsIn .ready with prep := none, dirty := !(a && b), atRisk := !(a && b) } }
  else
    { e with trans := e.trans.noTables
             store := { e.store.runsIn .unprepared with prep := none, dirty := false, atRisk := false } }

/-- The PREPARE command, unless a quiesce abandoned it, completes (Table 9-3). -/
def Ev.prepareCompletes (e : Ev) (st : Status) : Ev :=
  (e.cmd.tagsWith (fun r => r.op == some .prepare && r.st == .active)).foldl (fun e t => e.complete t st 0) e

/-- A copy of a PREPARE ends, VALID or not (R180). -/
def Ev.prepareCopyEnds (e : Ev) (p : Prep) (ok : Bool) : Ev :=
  match p.copy with
  | .a => Ev.prepareCopy { e with store.copyA := if ok then .valid 1 else .invalid } .b 2 ok
  | .b =>
    let e1 := Ev.prepareEnds { e with store.copyB := if ok then .valid 2 else .invalid } p.aValid ok
    e1.prepareCompletes (if p.aValid && ok then .good else .tableWriteFailed)

/-! ## The start-up load (R176 to R178) -/

/-- The run state becomes LOADING: the fault-line test of R121 and the beginning of the load (R176, R177). -/
def Ev.loadBegins (e : Ev) : Ev :=
  let e1 : Ev :=
    { e with store := { e.store with run := .loading, staging := []
                                     load := some { copy := .a, block := 0, candidate := none, mismatch := false } } }
  let e2 := if e1.gate.filter = .asserted then e1.tripInput .faultLine else e1
  e2.tableRead .a 0

/-- A usable unit (R176). -/
def unitUsable (p size : Nat) : Bool :=
  decide (Config.minCapacity ≤ p) && decide (p ≤ Config.maxCapacity) && size == Config.blockBytes

/-- A GOOD IDENTIFY (R103, R176). -/
def Ev.identified (e : Ev) (p size : Nat) : Ev :=
  let e1 : Ev := { e with media.identTimer := false, media.cap := some p }
  if unitUsable p size then e1.loadBegins else { e1 with store.run := .unitRejected }

/-- Tables are taken from an image of a copy (R178). -/
def Ev.loadTakes (e : Ev) (c : Copy) (img : Image) (v : Verdict) (stA stB : CopyStatus) (flags : Bool) : Ev :=
  let e1 : Ev :=
    { e with trans := e.trans.ofImage img
             store := { e.store with run := .ready, load := none, copyA := stA, copyB := stB, dirty := flags,
                                     atRisk := flags } }
  (e1.notice (.loadResult v c img.gen)).spareLowOnTables

/-- No tables are taken (R178). -/
def Ev.loadTakesNone (e : Ev) (v : Verdict) : Ev :=
  Ev.notice
    { e with store := { e.store with run := .unprepared, load := none, copyA := .invalid, copyB := .invalid,
                                     dirty := false, atRisk := false } }
    (.loadResult v .a 0)

/-- The decision of the load (Table 9-2). -/
def Ev.loadDecides (e : Ev) (a b : Option Image) (mismatch : Bool) : Ev :=
  match a, b with
  | some x, some y =>
    if x.gen < y.gen then e.loadTakes .b y .both (.valid x.gen) (.valid y.gen) false
    else if y.gen < x.gen then e.loadTakes .a x .both (.valid x.gen) (.valid y.gen) false
    else e.loadTakes .a x .oneCopy (.valid x.gen) .invalid true
  | some x, none => e.loadTakes .a x .oneCopy (.valid x.gen) .invalid true
  | none, some y => e.loadTakes .b y .oneCopy .invalid (.valid y.gen) true
  | none, none => e.loadTakesNone (if mismatch then .sizeMismatch else .none)

/-- A copy has been read in full, with the image its tests found, or has failed a block (R177). -/
def Ev.copyRead (e : Ev) (l : Load) (img : Option Image) : Ev :=
  let good := img.filter (·.p == e.media.capacity)
  let mismatch := l.mismatch || (img.isSome && good.isNone)
  match l.copy with
  | .a =>
    Ev.tableRead
      { e with store := { e.store with
          staging := [], load := some { copy := .b, block := 0, candidate := good, mismatch := mismatch } } }
      .b 0
  | .b => e.loadDecides l.candidate good mismatch

/-- A block of the load was read GOOD, at any level (R177). -/
def Ev.loadBlock (e : Ev) (l : Load) (d : BlockData) : Ev :=
  let e1 : Ev := { e with store.staging := e.store.staging ++ [d] }
  if l.block + 1 < Config.copyBlocks then
    Ev.tableRead { e1 with store.load := some { l with block := l.block + 1 } } l.copy (l.block + 1)
  else e1.copyRead l (readImage e1.store.staging)

/-! ## Responses to TABLE ops -/

/-- A block of a commit was written GOOD (R171). -/
def Ev.commitBlock (e : Ev) (c : Commit) : Ev :=
  if c.block + 1 < Config.copyBlocks then
    Ev.tableWrite { e with store.commit := some { c with block := c.block + 1 } } c.target (c.block + 1)
  else e.commitGood c

/-- A block of a PREPARE was written GOOD (R180). -/
def Ev.prepareBlock (e : Ev) (p : Prep) : Ev :=
  if p.block + 1 < Config.copyBlocks then
    Ev.tableWrite { e with store.prep := some { p with block := p.block + 1 } } p.copy (p.block + 1)
  else e.prepareCopyEnds p true

/-- The outcome of a TABLE job (R171, R177, R180). -/
def Ev.tableOutcome (e : Ev) (o : JobOutcome) : Ev :=
  match o with
  | .retry _ => e
  | .good _ d =>
    match e.store.load, e.store.commit, e.store.prep with
    | some l, _, _ => e.loadBlock l d
    | none, some c, _ => e.commitBlock c
    | none, none, some p => e.prepareBlock p
    | none, none, none => e
  | .failed =>
    match e.store.load, e.store.commit, e.store.prep with
    | some l, _, _ => e.copyRead l none
    | none, some c, _ => e.commitFault c
    | none, none, some p => e.prepareCopyEnds p false
    | none, none, none => e

end Sys2Proof.Machine
end

