-- ==== Sys2Proof/Machine/Response.lean ====
section
/-! DEFINITION. Machine/Response.lean: a response frame, matched or stray, and the routing of its outcome to the owner of
the job (sections 5.1, 5.6 and 5.7). -/

namespace Sys2Proof.Machine

open Sys2Proof

/-- The outcome of a load, of a READ command or detached (Tables 5-5 and 5-6, R114). -/
def Ev.loadOutcome (e : Ev) (i : SlotIx) (n : Lba) : JobOutcome → Ev
  | .good pass d => ((e.placeLoad i d).levelTests n pass).loadGood i
  | .failed => e.loadFailed i n
  | .retry _ => e

/-- The outcome of a VERIFY of a VERIFY command (R68). -/
def Ev.verifyOutcome (e : Ev) (t : Tag) (n : Lba) : JobOutcome → Ev
  | .good pass _ => ((e.levelTests n pass).blockDone t).verifyAdvance t
  | .failed => (e.suspectAdd n .host).verifyFails t .verifyFailed n
  | .retry _ => e

/-- The outcome of a write job of an LBA, in either phase (R115). -/
def Ev.writeOutcome (e : Ev) (j : Job) (i : SlotIx) (n : Lba) : JobOutcome → Ev
  | .good pass _ =>
    match j.phase with
    | .write =>
      if j.verifyDecision = some true then { e with media := e.media.requeue { j with phase := .verify, attempts := 0 } }
      else e.writeJobGood i j.owner
    | .verify =>
      if pass then (e.suspectClear n .writeVerified).writeJobGood i j.owner else e.writeJobFault i n j.owner
  | .failed => e.writeJobFault i n j.owner
  | .retry _ => e

/-- The outcome of a job of the active repair (R141, R143, R144). -/
def Ev.repairOutcome (e : Ev) (k : JobKind) (o : JobOutcome) : Ev :=
  match e.rpr.queue, e.rpr.active with
  | x :: _, some a =>
    match k, o with
    | .read, .good pass d =>
      let e1 : Ev := { e with rpr.buf := blockToWords d }
      (if pass then e1.suspectClear x.lba .readGood else e1).repairReserve x .repairBuf
    | .read, .failed => (e.suspectAdd x.lba .reread).relocationFailed x .rereadFailed
    | .write, .good _ _ => e.spareWritten a
    | .verify, .good true _ => e.sparePassed x a
    | .verify, .good false _ => e.spareFailed x a
    | .write, .failed => e.spareFailed x a
    | .verify, .failed => e.spareFailed x a
    | _, .retry _ => e
  | _, _ => e

/-- The outcome goes to the job's owner (Table 5-6). -/
def Ev.routeOutcome (e : Ev) (j : Job) (o : JobOutcome) : Ev :=
  let i := (j.slot?).getD 0
  let n := (j.lba?).getD 0
  match j.owner, j.kind with
  | .tag _, .read => e.loadOutcome i n o
  | .staging, .read => e.loadOutcome i n o
  | .tag t, .verify => e.verifyOutcome t n o
  | .tag _, .write => e.writeOutcome j i n o
  | .staging, .write => e.writeOutcome j i n o
  | .staging, .verify => e
  | .repair, k => e.repairOutcome k o
  | .patrol, _ => (match o with | .retry _ => e | .good _ _ | .failed => (e.patrolApply n o).patrolEnded)
  | .store, _ => e.tableOutcome o

/-- A non-fault answer for a job that has its owner: a retry returns the job to the head of its list, and a final
outcome is routed (R109, R112). -/
def Ev.jobAnswered (e : Ev) (j : Job) (b : Body) : Ev :=
  match e.media.outcome j b with
  | .retry j' => { e with media := e.media.requeue j' }
  | .good pass d => e.routeOutcome j (.good pass d)
  | .failed => e.routeOutcome j .failed

/-- A non-fault answer for an op that has lost its owner (R116). -/
def Ev.orphanAnswered (e : Ev) (j : Job) (b : Body) : Orphan → Ev
  | .applyNothing => e
  | .patrolQuiesce => e.patrolLate ((j.lba?).getD 0) (e.media.outcome j b)

/-- A matched GOOD or UNIT_FAULT of an IDENTIFY (R103). -/
def Ev.identifyAnswered (e : Ev) : Body → Ev
  | .goodIdentify p size => Ev.identified { e with gate.trips := 0 } p size
  | .unitFault | .goodRead _ _ | .goodVerify _ | .goodWrite | .unrecovered | .writeFault => e

/-- A matched response (R100, R112). -/
def Ev.answered (e : Ev) (o : Outstanding) (b : Body) : Ev :=
  match o.job with
  | none => Ev.identifyAnswered { e with media.link := none, media.opTimer := none } b
  | some j =>
    if b = .unitFault then e.abandonOp.tripInput .unitFault
    else
      let e1 : Ev := { e with media.link := none, media.opTimer := none, gate.trips := 0 }
      match o.orphan with
      | some k => e1.orphanAnswered j b k
      | none => e1.jobAnswered j b

end Sys2Proof.Machine
end

