-- ==== Sys2Proof/Machine/Control.lean ====
section
/-! DEFINITION. Machine/Control.lean: the soft reset, DISCARD, the end of a quiesce, and a write of CONTROL (R181 to R183,
R187). -/

namespace Sys2Proof.Machine

open Sys2Proof

/-! ## Entry to QUIESCE -/

/-- A tag is abandoned (R83). -/
def TagRec.abandon (r : TagRec) : TagRec := if r.owed then TagRec.empty else r

/-- A slot at the entry to QUIESCE (R52). -/
def Slot.quiesced (x : Slot) : Slot :=
  match x.st, x.owner with
  | .filling, _ => Slot.empty
  | .loading, _ => { x with claims := 0, owner := none }
  | .writing, some (.tag _) =>
    if x.superseded then Slot.empty else { x with st := .dirty, owner := none, claims := 0 }
  | _, _ => { x with claims := 0 }

/-- The job of a command that is dropped at the entry to QUIESCE: a VERIFY job or a write-through write job (R118). -/
def Job.dropped (j : Job) : Bool := j.cls == .host && j.kind != .read

/-- The jobs and the link at the entry to QUIESCE (R118): HOST jobs of commands dropped, loads detached. An op without
an owner stays (log 30). -/
def Media.quiesced (m : Media) : Media :=
  let loads := (m.hostQ.filter (fun j => !j.dropped)).map (fun j => { j with owner := .staging })
  match m.link with
  | none => { m with hostQ := loads }
  | some o =>
    if o.orphan.isNone && o.job.any Job.dropped then { m with hostQ := loads, link := none, opTimer := none }
    else if o.job.any (fun j => j.cls == .host && j.kind == .read) then
      { m with hostQ := loads, link := some { o with job := o.job.map (fun j => { j with owner := .staging }) } }
    else { m with hostQ := loads }

/-- An entry of the repair queue loses its tags (R152). -/
def RepairEntry.bare (x : RepairEntry) : RepairEntry := { x with relTag := none, wtTag := none, wtFormer := none }

/-- Every command is abandoned (R83, R94, R152). -/
def Ev.abandonCommands (e : Ev) : Ev :=
  { e with
    cmd.tags := e.cmd.tags.map TagRec.abandon
    cmd.order := []
    ports.p0.bound := none
    ports.p1.bound := none
    ports.wait := []
    rpr.wait := []
    rpr.queue := e.rpr.queue.map RepairEntry.bare
    buf.allocQ := []
    buf.flush := [] }

/-- The slots at the entry to QUIESCE, in slot-number order (R52). -/
def Ev.quiesceSlots (e : Ev) : Ev :=
  (List.range e.buf.slots.length).foldl (fun e i => e.setSlot i (e.buf.slot i).quiesced) e

/-! ## DISCARD (R53, R118, R153, R183) -/

/-- A slot that DISCARD frees and counts (R53). -/
def Slot.lost (x : Slot) : Bool := x.inWork || x.st == .pinned

/-- The Staging Buffer under DISCARD (R53). Where it is written in a quiesce whose buffer is drained already, the PINNED slots
that are left are freed and counted, as step 1 of R53 has it (log 33: the model's choice, since the last sentence of R53 has
such a DISCARD free nothing). -/
def Ev.discardSlots (e : Ev) : Ev :=
  let n := e.buf.slots.countP Slot.lost
  let e1 := (e.buf.slotsWith (fun x => x.lost || x.st == .loading)).foldl Ev.freeSlot e
  { e1 with buf.lost := min 0xFFFF (e1.buf.lost + n), buf.flush := [] }

/-- The Repair Unit under DISCARD (R153). -/
def Ev.discardRepairs (e : Ev) : Ev :=
  let e1 := match e.rpr.active.bind (·.spare) with
    | some r => e.returnSpare r
    | none => e
  { e1 with rpr.queue := [], rpr.active := none, rpr.buf := [] }

/-- The Media Engine under DISCARD: no job and no op (R118). -/
def Media.discarded (m : Media) : Media :=
  { m with link := none, opTimer := none, tableQ := [], hostQ := [], destageQ := [], repairQ := [], patrolQ := [] }

/-- The Table Store under DISCARD (R183). -/
def Ev.discardTables (e : Ev) : Ev :=
  match e.store.commit, e.store.prep with
  | some c, _ =>
    { e with store := { e.store.setCopy c.target .invalid with commit := none, dirty := true, atRisk := true } }
  | none, some p => Ev.prepareEnds { e with store := e.store.setCopy p.copy .invalid } p.aValid false
  | none, none => e

/-- DISCARD takes effect (R53, R118, R153, R183). -/
def Ev.discardNow (e : Ev) : Ev :=
  let e1 := e.discardSlots.discardRepairs
  let e2 := Ev.discardTables { e1 with media := e1.media.discarded }
  { e2 with store.discarded := true }

/-! ## Soft reset (R181) -/

/-- The run state enters QUIESCE (R181, with R52, R83, R118, R132, R152 and R165). Where DISCARD acts at the entry, R52 is
taken before R53: a superseded write-through WRITING slot is FREE by then, and LOST_BLOCKS does not count it. No rule orders
the two (log 32: the model's choice). -/
def Ev.enterQuiesce (e : Ev) : Ev :=
  let e1 := Ev.patrolOffQuiesce
    { e.abandonCommands with store := { e.store with run := .quiesce, ret := some e.store.run, discarded := false } }
  let e2 := Ev.quiesceSlots { e1 with media := e1.media.quiesced }
  if e2.bus.discard then e2.discardNow
  else if e2.gate.st = .latched then e2.failFast
  else e2.repairWake

/-- A soft-reset request (R181). -/
def Ev.softResetRequest (e : Ev) : Ev :=
  match e.store.run with
  | .ready | .unprepared => e.enterQuiesce
  | .starting | .unitRejected | .loading | .quiesce => e

/-! ## The end of a quiesce (R182) -/

/-- The buffer is drained (R52). -/
def Buf.drained (b : Buf) : Bool := b.slots.all (fun x => !x.inWork && x.st != .loading)

/-- The conditions of R182. -/
def State.quiesceDone (s : State) : Bool :=
  s.store.run == .quiesce && s.buf.drained && s.rpr.queue.isEmpty && s.store.commit.isNone && s.store.prep.isNone
    && !s.commitDue

/-- A REPORTED tag becomes FREE (R83). -/
def TagRec.popped (r : TagRec) : TagRec := if r.st = .reported then TagRec.empty else r

/-- The ending event (R182). -/
def Ev.quiesceEnds (e : Ev) : Ev :=
  { e with
    posted := []
    rep := { recs := [], noticeLost := false }
    cmd := { e.cmd with tags := e.cmd.tags.map TagRec.popped, submit := .none, abortRefused := false }
    gate.refused := false
    patrol.badWindow := false
    ports := { e.ports with p0 := { e.ports.p0 with empty := false }, p1 := { e.ports.p1 with empty := false } }
    bus := { e.bus with stageEn := false, patrolCont := false, reportIe := false, portIe := false, discard := false }
    store := { e.store with run := e.store.ret.getD .ready, ret := none, discarded := false } }

/-- QUIESCE_END (R182). -/
def Ev.quiesceEnd? (e : Ev) : Option Ev := if e.toState.quiesceDone then some e.quiesceEnds else none

/-! ## A write of CONTROL (R187) -/

/-- Step 1. -/
def Bus.control (b : Bus) (v : Word) : Bus :=
  { b with stageEn := bitOf v 0, patrolCont := bitOf v 2, reportIe := bitOf v 3, portIe := bitOf v 4,
           discard := bitOf v 6 }

/-- Step 2. -/
def Ev.controlReopen (e : Ev) (v : Word) : Ev := if bitOf v 7 then e.reopen else e

/-- Step 3. -/
def Ev.controlPatrol (e : Ev) (v : Word) : Ev :=
  if bitOf v 1 then (if e.patrol.enabled then e else e.patrolEnable)
  else (if e.patrol.enabled then e.patrolDisable else e)

/-- Step 4. -/
def Ev.controlReset (e : Ev) (v : Word) : Ev := if bitOf v 5 then e.softResetRequest else e

/-- Step 5, with the run state before the write. -/
def Ev.controlDiscard (e : Ev) (v : Word) (before : RunState) : Ev :=
  if before = .quiesce && bitOf v 6 && !e.store.discarded then e.discardNow else e

/-- A write of CONTROL: its five steps in order (R187). -/
def Ev.controlWrite (v : Word) (e : Ev) : Ev :=
  ((((Ev.controlReopen { e with bus := e.bus.control v } v).controlPatrol v).controlReset v).controlDiscard v
    e.store.run)

end Sys2Proof.Machine
end

