-- ==== Sys2Proof/Machine/Submission.lean ====
section
/-! DEFINITION. Machine/Submission.lean: the acceptance tests, acceptance, the start of a command, port binding, and
abort (chapter 3, section 4.2). -/

namespace Sys2Proof.Machine

open Sys2Proof

/-! ## Acceptance tests (R57) -/

/-- The run state admits an opcode (Table 3-2, test 2). -/
def RunState.admits (r : RunState) (o : Opcode) : Bool :=
  match r with
  | .ready => true
  | .unprepared => o == .prepare
  | .starting | .unitRejected | .loading | .quiesce => false

/-- A PREPARE is QUEUED or ACTIVE (test 3). -/
def Cmd.preparing (c : Cmd) : Bool :=
  c.tags.any (fun r => r.op == some .prepare && (r.st == .queued || r.st == .active))

/-- A slot that stands against a PREPARE (R72). -/
def Slot.blocksPrepare (x : Slot) : Bool := x.inWork || x.st == .pinned || x.st == .loading

/-- A condition of R72 is unmet. -/
def State.prepareBlocked (s : State) : Bool :=
  s.cmd.tags.any TagRec.owed || s.buf.slots.any Slot.blocksPrepare || !s.rpr.queue.isEmpty || s.store.commit.isSome

/-- The parameters fit the opcode (test 4). -/
def State.parametersFit (s : State) (o : Opcode) : Bool :=
  let n := s.cmd.lbaReg
  let k := s.cmd.count.toNat
  let range := decide (1 ≤ k) && decide (k ≤ Config.slotCount) && decide (n + k ≤ s.trans.blocks)
  let port := (portSelOf s.cmd.flags).isSome
  match o with
  | .read => range && port && !throughOf s.cmd.flags
  | .write => range && port
  | .verify => range && !throughOf s.cmd.flags
  | .flush => !throughOf s.cmd.flags
  | .relocate | .releasePinned | .clearSuspect => decide (n < s.trans.blocks) && !throughOf s.cmd.flags
  | .prepare => decide (16 ≤ k) && decide (k ≤ 256) && !throughOf s.cmd.flags

/-- The lowest-numbered FREE tag (R58). -/
def Cmd.freeTag (c : Cmd) : Option Tag := c.tags.findIdx? (·.st == .free)

/-- Records and owed completions are 32 (test 5, R79). -/
def State.queueFull (s : State) : Bool := decide (Config.reportPlaces ≤ s.rep.recs.length + s.cmd.owedCount)

/-- The tests after the first, in order (R57): the tag a command would take, or the reason of its refusal. -/
def State.tests (s : State) (o : Opcode) : Except Reason Tag :=
  if !s.store.run.admits o then .error .notReady
  else if s.cmd.preparing || (o == .prepare && s.prepareBlocked) then .error .busy
  else if !s.parametersFit o then .error .badParameter
  else if s.queueFull then .error .queueFull
  else
    match s.cmd.freeTag with
    | some t => .ok t
    | none => .error .queueFull

/-! ## Acceptance (R58, R59) -/

/-- FLUSH and PREPARE have no LBA (R59). -/
def hasLba (o : Opcode) : Bool := o != .flush && o != .prepare

/-- READ, WRITE, VERIFY and PREPARE have a block count (R59). -/
def hasCount (o : Opcode) : Bool := o == .read || o == .write || o == .verify || o == .prepare

/-- READ and WRITE use a port (R59). -/
def usesPort (o : Opcode) : Bool := o == .read || o == .write

/-- The record of an accepted command (R59). -/
def Cmd.record (c : Cmd) (o : Opcode) : TagRec :=
  { TagRec.empty with
    st := .queued
    op := some o
    lba := if hasLba o then c.lbaReg else 0
    count := if hasCount o then c.count.toNat else 0
    portSel := if usesPort o then (portSelOf c.flags).getD .p0 else .p0
    through := o == .write && throughOf c.flags }

/-- Acceptance (R58), with the flush set of a FLUSH (R49). -/
def Ev.accept (o : Opcode) (t : Tag) (v : Word) (e : Ev) : Ev :=
  { e with
    cmd := { e.cmd with command := v, submit := .accepted t, tags := e.cmd.tags.set t (e.cmd.record o),
                        order := e.cmd.order ++ [t] }
    buf.flush := if o = .flush then e.buf.flush ++ [e.buf.flushSet t] else e.buf.flush }

/-! ## Start of a command (R63) -/

/-- RELEASE_PINNED (R48, R71). -/
def Ev.releasePinned (e : Ev) (t : Tag) : Ev :=
  let n := (e.cmd.tag t).lba
  match e.buf.lookup n with
  | some i =>
    if (e.buf.slot i).st = .pinned then (e.freeSlot i).complete t .good n else e.complete t .notPinned n
  | none => e.complete t .notPinned n

/-- CLEAR_SUSPECT (R19, R71). -/
def Ev.clearSuspect (e : Ev) (t : Tag) : Ev :=
  let n := (e.cmd.tag t).lba
  if e.trans.suspect n then
    Ev.complete { e with trans := e.trans.withoutSuspect n, store.dirty := true } t .good n
  else e.complete t .notSuspect n

/-- A command that no hold keeps is set going (R63). -/
def Ev.startCommand (e : Ev) (t : Tag) : Ev :=
  match (e.cmd.tag t).op with
  | some .read | some .write => { e with ports.wait := e.cmd.inOrder (t :: e.ports.wait) }
  | some .verify => (e.activate t).verifyAdvance t
  | some .flush => e.activate t
  | some .relocate =>
    let e1 := e.activate t
    { e1 with rpr.wait := e1.cmd.inOrder (t :: e1.rpr.wait) }
  | some .releasePinned => (e.activate t).releasePinned t
  | some .clearSuspect => (e.activate t).clearSuspect t
  | some .prepare => (e.activate t).prepareBegin (e.cmd.tag t).count
  | none => e

/-- A QUEUED command, not yet set going and not held (R62, R63). -/
def State.startable (s : State) (t : Tag) : Bool :=
  (s.cmd.tag t).st == .queued && (s.cmd.tag t).op.isSome && !s.ports.wait.contains t && !s.cmd.isHeld t

/-- COMMAND_START: the oldest such command (R63). Where several commands leave their hold in one event, the older is set
going first: R63 gives no order, which shows in the HOST list where two of them are VERIFY commands (log 2: the model's
choice). -/
def Ev.commandStart? (e : Ev) : Option Ev := (e.cmd.order.find? e.toState.startable).map e.startCommand

/-! ## Binding (R86, R87) -/

/-- The port a waiting command can take now (R86). -/
def Ports.takes (p : Ports) (x : PortSel) : Option PortId :=
  match x with
  | .p0 => if p.p0.bound.isNone then some .p0 else none
  | .p1 => if p.p1.bound.isNone then some .p1 else none
  | .any => if p.p0.bound.isNone then some .p0 else if p.p1.bound.isNone then some .p1 else none

/-- A port is given to a command (R87). -/
def Ev.bind (e : Ev) (t : Tag) (i : PortId) : Ev :=
  let wr := (e.cmd.tag t).op == some .write
  let e1 := e.activate t
  let e2 : Ev :=
    { e1 with
      ports := { e1.ports.set i { e1.ports.get i with
          bound := some { tag := t, dir := if wr then .write else .read, block := 0, word := 0 } } with
        wait := e1.ports.wait.filter (· != t) } }
  if wr then e2.fillRequest t 0 else e2

/-- PORT_BINDING: the oldest waiting command that can take a port (R86). -/
def Ev.portBinding? (e : Ev) : Option Ev :=
  e.ports.wait.findSome? (fun t => (e.ports.takes (e.cmd.tag t).portSel).map (e.bind t))

/-! ## Abort (R73 to R77) -/

/-- A QUEUED command is aborted (R74). -/
def Ev.abortQueued (e : Ev) (t : Tag) : Ev :=
  let e1 : Ev := { e.dropSet t with ports.wait := e.ports.wait.filter (· != t) }
  e1.complete t .aborted (e.cmd.tag t).lba

/-- The VERIFY of an aborted VERIFY command on the link loses its owner (R75, R116). -/
def Media.orphanVerify (m : Media) (t : Tag) : Media :=
  { m with link := m.link.map (fun o =>
      if o.orphan.isNone && o.job.any (fun j => j.owner == .tag t && j.kind == .verify) then
        { o with orphan := some .applyNothing }
      else o) }

/-- An ACTIVE WRITE is aborted (R76). A recorded failure is dropped. -/
def Ev.abortWrite (e : Ev) (t : Tag) : Ev :=
  let e1 := e.stopFilling t
  let e2 := e1.setTag t { e1.cmd.tag t with st := .aborting, failure := none }
  e2.writeCheck 0 t

/-- An attached RELOCATE command is detached (R77, R138). -/
def RepairEntry.dropRelocate (t : Tag) (x : RepairEntry) : RepairEntry :=
  if x.relTag = some t then { x with relTag := none } else x

/-- An ACTIVE RELOCATE is aborted (R77). -/
def Ev.abortRelocate (e : Ev) (t : Tag) : Ev :=
  Ev.complete
    { e with rpr.queue := e.rpr.queue.map (RepairEntry.dropRelocate t), rpr.wait := e.rpr.wait.filter (· != t) }
    t .aborted (e.cmd.tag t).lba

/-- An ACTIVE command is aborted (R75 to R77). -/
def Ev.abortActive (e : Ev) (t : Tag) : Ev :=
  let n := (e.cmd.tag t).lba
  match (e.cmd.tag t).op with
  | some .read => (e.release t).complete t .aborted n
  | some .verify =>
    let e1 := e.dropVerifies t
    Ev.complete { e1 with media := e1.media.orphanVerify t } t .aborted n
  | some .write => e.abortWrite t
  | some .flush => (e.dropSet t).complete t .aborted n
  | some .relocate => e.abortRelocate t
  | some .releasePinned | some .clearSuspect | some .prepare | none => e

/-- The opcodes that cannot be aborted (R73). -/
def unabortable : Opcode → Bool
  | .prepare | .releasePinned | .clearSuspect => true
  | .read | .write | .verify | .flush | .relocate => false

/-- An abort of tag t is refused (R73). -/
def State.abortDenied (s : State) (t : Tag) : Bool :=
  decide (Config.tagCount ≤ t) || (s.cmd.tag t).st == .free || (s.cmd.tag t).st == .reported
    || (s.cmd.tag t).op.all unabortable

end Sys2Proof.Machine
end

