-- ==== Sys2Proof/Machine/Settle.lean ====
section
/-! DEFINITION. Machine/Settle.lean: the internal steps of the part, and how an event runs the consequences that its rules
place in the same event (section Time and order of 00_scope.md; log 1, log 2). -/

namespace Sys2Proof.Machine

open Sys2Proof

/-- The internal steps, in the order in which they are tried; each answers only when it is due (log 2). -/
def internalSteps : List (Ev → Option Ev) :=
  [Ev.flushComplete?, Ev.wtCreate?, Ev.destageOffer?, Ev.admissionServe?, Ev.repairActivate?, Ev.commandStart?,
    Ev.readLookup?, Ev.slotAlloc?, Ev.portBinding?, Ev.genLimit?, Ev.commitStart?, Ev.quiesceEnd?, Ev.opIssue?,
    Ev.patrolResume?]

/-- The first internal step that is due. -/
def Ev.oneStep (e : Ev) : Option Ev := internalSteps.findSome? (fun f => f e)

/-- Internal steps are taken while one is due (log 29 for the bound). -/
def Ev.settle (fuel : Nat) (e : Ev) : Ev :=
  match fuel with
  | 0 => e
  | k + 1 =>
    match e.oneStep with
    | some e1 => e1.settle k
    | none => e

/-- Every internal step that is due, in one event. -/
def Ev.settled (e : Ev) : Ev := e.settle Config.eventSteps

/-- The end of an event whose direct effect is e: the consequences, then the completions. -/
def Ev.close (e : Ev) : State := e.settled.finish

/-- One event: its direct effect, the internal steps that follow in it, and its completions. With RESET_N asserted no
event is taken (R184, R185). -/
def State.event (f : Ev → Ev) (s : State) : State :=
  if s.bus.resetLow then s else (f s.begin).close

/-- One internal step as a command of its own: taken if it is due (log 3). -/
def State.internal (f : Ev → Option Ev) (s : State) : State := s.event (fun e => (f e).getD e)

end Sys2Proof.Machine
end

