-- ==== Sys2Proof/Machine/Registers.lean ====
section
/-! DEFINITION. Machine/Registers.lean: what each register reads as, and the writes of the registers that act on their own
fields alone (chapter 10). -/

namespace Sys2Proof.Machine

open Sys2Proof

/-! ## The table view (R23, R24, R193) -/

/-- A tag field and its presence bit. -/
def tagField : Option Tag → Nat × Nat
  | some t => (1, t % 8)
  | none => (0, 0)

/-- The slot field of the REPAIR view: 0 for a RELOCATE entry (R193, Table 10-10). -/
def RepairEntry.shownSlot (x : RepairEntry) : Nat :=
  match x.kind with
  | .relocate => 0
  | .remapWrite => x.slot.getD 0

/-- The entry a view shows (Table 10-10). -/
def State.viewEntry (s : State) (sel : Nat) (i : Nat) : TableView :=
  match sel with
  | 0 =>
    match s.trans.remap[i]? with
    | some r => { d0 := packWord [(1, 0), (originCode r.origin, 8)], d1 := BitVec.ofNat 16 (r.spare % 256),
                  d2 := lowWord r.lba, d3 := BitVec.ofNat 16 (r.lba / 65536 % 4096) }
    | none => TableView.blank
  | 1 =>
    match s.trans.suspects[i]? with
    | some x => { d0 := packWord [(1, 0), (causeCode x.cause, 8)], d1 := 0, d2 := lowWord x.lba,
                  d3 := BitVec.ofNat 16 (x.lba / 65536 % 4096) }
    | none => TableView.blank
  | 2 =>
    match s.trans.spares[i]? with
    | some x => { d0 := packWord [(1, 0), (spareCode x, 8)], d1 := 0, d2 := 0, d3 := 0 }
    | none => TableView.blank
  | _ =>
    match s.rpr.queue[i]? with
    | some x =>
      { d0 := packWord [(1, 0), (match x.kind with | .relocate => 0 | .remapWrite => 1, 8), (originCode x.origin, 9),
                        ((tagField x.relTag).1, 11), ((tagField x.wtTag).1, 12)]
        d1 := packWord [(x.shownSlot % 64, 0), ((tagField x.relTag).2, 8), ((tagField x.wtTag).2, 12)]
        d2 := lowWord x.lba
        d3 := BitVec.ofNat 16 (x.lba / 65536 % 4096) }
    | none => TableView.blank

/-- The entry TABLE_SEL and TABLE_IDX choose. -/
def State.viewNow (s : State) : TableView := s.viewEntry s.trans.tableSel.toNat s.trans.tableIdx.toNat

/-! ## Reads (R185 to R193) -/

/-- The word a read of DATA returns (R90, R93). -/
def State.dataWord (s : State) (p : PortId) : Word :=
  match (s.ports.get p).bound with
  | some b =>
    match b.dir with
    | .read =>
      match s.deliverable b with
      | some i => (s.buf.slot i).data.getD b.word 0
      | none => 0
    | .write => 0
  | none => 0

/-- Word k of the head record of the report queue (R81, R190). -/
def Rep.headWord (r : Rep) (k : Nat) : Word :=
  match r.recs with
  | [] => 0
  | x :: _ =>
    match k with
    | 0 => x.word0
    | 1 => x.word1
    | 2 => x.word2
    | _ => x.word3

/-- BUF_COUNTS (R186). -/
def Buf.countsWord (b : Buf) : Word := packWord [(b.workCount % 128, 0), (b.pinnedCount % 128, 8)]

/-- CMD_FLAGS as read: bits 15:3 read 0 (R189). -/
def Cmd.flagsWord (c : Cmd) : Word := BitVec.ofNat 16 (fieldOf c.flags 0 3)

/-- STAGE_CFG as read (Table 10-9). -/
def State.stageWord (s : State) : Word := packWord [(s.buf.highWater, 0), (s.trans.spareLow, 8)]

/-- The value a register has, by its word address (Table 10-1). The read itself is State.readAt. -/
def State.regValue (s : State) (a : BitVec 6) : Word :=
  match a.toNat with
  | 0 => s.controlWord
  | 1 => s.statusWord
  | 2 => s.cmd.lbaL
  | 3 => s.cmd.lbaH
  | 4 => s.cmd.count
  | 5 => s.cmd.flagsWord
  | 6 => s.cmd.command
  | 7 => s.cmd.submit.word
  | 8 => 0
  | 9 => s.rep.headWord 0
  | 10 => s.rep.headWord 1
  | 11 => s.rep.headWord 2
  | 12 => s.rep.headWord 3
  | 13 => BitVec.ofNat 16 s.rep.recs.length
  | 14 => s.dataWord .p0
  | 15 => s.statWord s.ports.p0
  | 16 => s.dataWord .p1
  | 17 => s.statWord s.ports.p1
  | 18 => lowWord s.trans.blocks
  | 19 => BitVec.ofNat 16 (s.bus.capLatch / 65536 % 4096)
  | 20 => BitVec.ofNat 16 s.trans.spareCount
  | 21 => BitVec.ofNat 16 s.trans.freeCount
  | 22 => s.buf.countsWord
  | 23 => lowWord s.store.newestGen
  | 24 => highWord s.bus.genLatch
  | 25 => BitVec.ofNat 16 s.buf.lost
  | 26 => s.media.cfgWord
  | 27 => s.gate.cfgWord
  | 28 => s.stageWord
  | 29 => s.patrol.cfgWord
  | 30 => s.patrol.startL
  | 31 => s.patrol.startH.zeroExtend 16
  | 32 => s.patrol.endL
  | 33 => s.patrol.endH.zeroExtend 16
  | 34 => lowWord s.patrol.pos
  | 35 => BitVec.ofNat 16 (s.bus.posLatch / 65536 % 4096)
  | 36 => s.trans.tableSel.zeroExtend 16
  | 37 => s.trans.tableIdx.zeroExtend 16
  | 38 => s.viewNow.d0
  | 39 => s.trans.view.d1
  | 40 => s.trans.view.d2
  | 41 => s.trans.view.d3
  | _ => 0

/-! ## Accesses that change only their owner's fields

With RESET_N asserted no access is taken (R185). -/

/-- An access is taken unless RESET_N is asserted (R185). -/
def State.access (f : State → State) (s : State) : State := if s.bus.resetLow then s else f s

/-- The read of TABLE_D0 (R23). -/
def State.readView (s : State) : State :=
  { s with trans.view := s.viewNow, bus.readout := some s.viewNow.d0 }

/-- The read of CAP_L, GEN_L or PPOS_L (R186). -/
def State.readWide (r : WideReg) (s : State) : State :=
  match r with
  | .cap => { s with bus.capLatch := s.trans.blocks, bus.readout := some (lowWord s.trans.blocks) }
  | .gen => { s with bus.genLatch := s.store.newestGen, bus.readout := some (lowWord s.store.newestGen) }
  | .pos => { s with bus.posLatch := s.patrol.pos, bus.readout := some (lowWord s.patrol.pos) }

/-- A write of STATUS: the sticky fields written 1 are cleared (R188). -/
def State.writeStatus (v : Word) (s : State) : State :=
  { s with
    rep.noticeLost := s.rep.noticeLost && !bitOf v 10
    cmd.abortRefused := s.cmd.abortRefused && !bitOf v 11
    gate.refused := s.gate.refused && !bitOf v 12
    patrol.badWindow := s.patrol.badWindow && !bitOf v 13 }

/-- A write of STAT: EMPTY_ACCESS is cleared when bit 6 is written 1 (R191). -/
def State.writeStat (p : PortId) (v : Word) (s : State) : State :=
  { s with ports := s.ports.set p { s.ports.get p with empty := (s.ports.get p).empty && !bitOf v 6 } }

/-- A write of LOST_BLOCKS (R55). -/
def State.clearLost (s : State) : State := { s with buf.lost := 0 }

/-- A write of MEDIA_CFG (R117). -/
def State.writeMediaCfg (v : Word) (s : State) : State := { s with media := s.media.withCfg v }

/-- A write of PATROL_CFG (R155). -/
def State.writePatrolCfg (v : Word) (s : State) : State := { s with patrol := s.patrol.withCfg v }

/-- A write of a register of the patrol window, taken while patrol is OFF (R155). -/
def State.writeWindow (r : WindowReg) (v : Word) (s : State) : State :=
  if s.patrol.st = .off then
    match r with
    | .startL => { s with patrol.startL := v }
    | .startH => { s with patrol.startH := BitVec.ofNat 12 v.toNat }
    | .endL => { s with patrol.endL := v }
    | .endH => { s with patrol.endH := BitVec.ofNat 12 v.toNat }
  else s

/-- A write of TABLE_SEL or TABLE_IDX (R23, R193). -/
def State.writeView (r : ViewReg) (v : Word) (s : State) : State :=
  match r with
  | .sel => { s with trans.tableSel := BitVec.ofNat 2 v.toNat }
  | .idx => { s with trans.tableIdx := BitVec.ofNat 8 v.toNat }

/-- The four parameter registers of a command (R189). -/
inductive ParamReg where
  | lbaL
  | lbaH
  | count
  | flags
deriving DecidableEq, Repr

/-- A write of a parameter register (R189). -/
def State.writeParam (r : ParamReg) (v : Word) (s : State) : State :=
  match r with
  | .lbaL => { s with cmd.lbaL := v }
  | .lbaH => { s with cmd.lbaH := v }
  | .count => { s with cmd.count := v }
  | .flags => { s with cmd.flags := BitVec.ofNat 16 (fieldOf v 0 3) }

/-- The tag of a popped completion becomes FREE (R81). -/
def Cmd.popped (c : Cmd) : Report → Cmd
  | .completion t _ _ _ => { c with tags := c.tags.set t TagRec.empty }
  | .notice _ => c

/-- A pop of the report queue (R81). -/
def State.pop (s : State) : State :=
  match s.rep.recs with
  | [] => s
  | x :: l => { s with rep.recs := l, cmd := s.cmd.popped x }

/-- A refused submission (R56; COMMAND stores the value written, R189). -/
def State.refuse (v : Word) (why : Reason) (s : State) : State :=
  { s with cmd := { s.cmd with command := v, submit := .refused why } }

/-- An empty access at a port (R93). -/
def State.emptyAccess (p : PortId) (s : State) : State :=
  { s with ports := s.ports.set p { s.ports.get p with empty := true } }

/-- The word a read drives on D[15:0] (R185; log 8). -/
def State.drive (w : Word) (s : State) : State := { s with bus.readout := some w }

/-- The word index of a bound port moves on (R90, R91). -/
def State.nextWord (p : PortId) (b : Binding) (s : State) : State :=
  { s with ports := s.ports.set p { s.ports.get p with bound := some { b with word := b.word + 1 } } }

/-- A word is placed in the FILLING slot i (R91). -/
def State.placeWord (i : SlotIx) (v : Word) (s : State) : State :=
  { s with buf.slots := s.buf.slots.set i { s.buf.slot i with data := (s.buf.slot i).data ++ [v] } }

end Sys2Proof.Machine
end

