-- ==== Sys2Proof/Machine/Access.lean ====
section
/-! DEFINITION. Machine/Access.lean: the register accesses that reach past their owner's fields: DATA, COMMAND, ABORT,
CONTROL, GATE_CFG, and the decoding of a write at any address (R185). -/

namespace Sys2Proof.Machine

open Sys2Proof

/-! ## DATA (R90, R91, R93) -/

/-- The port moves to the next block. -/
def Ev.nextBlock (e : Ev) (p : PortId) (b : Binding) : Ev :=
  { e with ports := e.ports.set p { e.ports.get p with bound := some { b with block := b.block + 1, word := 0 } } }

/-- Word 255 of a block has been read from slot i (R90). -/
def Ev.blockRead (p : PortId) (b : Binding) (i : SlotIx) (e : Ev) : Ev :=
  let e1 := (e.dropClaim b.tag i).blockDone b.tag
  if (e1.cmd.tag b.tag).count ≤ b.block + 1 then
    (e1.unbind b.tag).complete b.tag .good (e1.cmd.tag b.tag).lba
  else e1.nextBlock p b

/-- The 256th word of a block has been placed in slot i (R91). -/
def Ev.blockWritten (p : PortId) (b : Binding) (i : SlotIx) (e : Ev) : Ev :=
  let e1 := e.fillComplete b.tag i
  if (e1.cmd.tag b.tag).count ≤ b.block + 1 then (e1.unbind b.tag).writeCheck 0 b.tag
  else (e1.nextBlock p b).fillRequest b.tag (b.block + 1)

/-- A read of DATA that moves the word of slot i (R90). -/
def State.readFrom (p : PortId) (b : Binding) (i : SlotIx) (s : State) : State :=
  if b.word + 1 < Config.blockWords then s.nextWord p b else s.event (Ev.blockRead p b i)

/-- A write of DATA that stores a word in slot i (R91). -/
def State.writeInto (p : PortId) (b : Binding) (i : SlotIx) (v : Word) (s : State) : State :=
  if b.word + 1 < Config.blockWords then (s.placeWord i v).nextWord p b
  else (s.placeWord i v).event (Ev.blockWritten p b i)

/-- A read of a port's DATA (R90, R93). -/
def State.readData (p : PortId) (s : State) : State :=
  match (s.ports.get p).bound with
  | some b =>
    match b.dir, s.deliverable b with
    | .read, some i => (s.readFrom p b i).drive (s.dataWord p)
    | _, _ => (s.emptyAccess p).drive 0
  | none => (s.emptyAccess p).drive 0

/-- A write of a port's DATA (R91, R93). -/
def State.writeData (p : PortId) (v : Word) (s : State) : State :=
  match (s.ports.get p).bound with
  | some b =>
    match b.dir, s.fillable b with
    | .write, some i => s.writeInto p b i v
    | _, _ => s.emptyAccess p
  | none => s.emptyAccess p

/-! ## COMMAND, ABORT, CONTROL and the configuration that acts -/

/-- A write of COMMAND: a submission (R56, R57, R58). -/
def State.writeCommand (v : Word) (s : State) : State :=
  match opcodeOf v with
  | none => s.refuse v .badOpcode
  | some o =>
    match s.tests o with
    | .error why => s.refuse v why
    | .ok t => s.event (Ev.accept o t v)

/-- A write of ABORT (R73): refused, ignored for an ABORTING tag, or taken. -/
def State.writeAbort (v : Word) (s : State) : State :=
  if s.abortDenied v.toNat then { s with cmd.abortRefused := true }
  else
    match (s.cmd.tag v.toNat).st with
    | .queued => s.event (fun e => e.abortQueued v.toNat)
    | .active => s.event (fun e => e.abortActive v.toNat)
    | .aborting | .free | .reported => s

/-- A write of CONTROL (R187). -/
def State.writeControl (v : Word) (s : State) : State := s.event (Ev.controlWrite v)

/-- A write of GATE_CFG (R128). -/
def State.writeGateCfg (v : Word) (s : State) : State := s.event (fun e => e.gateConfigure v)

/-- A write of STAGE_CFG: HIGH_WATER and SPARE_LOW (R11, R44). -/
def State.writeStageCfg (v : Word) (s : State) : State :=
  { s with buf.highWater := highWaterOf v, trans.spareLow := spareLowOf v }

/-! ## A read at any address (R185, Table 10-1) -/

/-- What a read of a register at a word address does: the side effect of the registers that have one, and the value the
register has driven on D[15:0]. -/
def State.readReg (a : BitVec 6) (s : State) : State :=
  match a.toNat with
  | 14 => s.readData .p0
  | 16 => s.readData .p1
  | 18 => s.readWide .cap
  | 23 => s.readWide .gen
  | 34 => s.readWide .pos
  | 38 => s.readView
  | _ => s.drive (s.regValue a)

/-- A read at a word address: with RESET_N asserted it is not taken, and drives nothing (R185). The reads that
spec/opcode_table.json has no row for are no commands, and this is what they do (log 8). -/
def State.readAt (a : BitVec 6) (s : State) : State := s.access (·.readReg a)

/-! ## A write at any address (R185, Table 10-1) -/

/-- What a write of a register at a word address does; a write of a read-only register and of 54h to 7Eh is ignored. -/
def State.writeReg (a : BitVec 6) (v : Word) (s : State) : State :=
  match a.toNat with
  | 0 => s.writeControl v
  | 1 => s.writeStatus v
  | 2 => s.writeParam .lbaL v
  | 3 => s.writeParam .lbaH v
  | 4 => s.writeParam .count v
  | 5 => s.writeParam .flags v
  | 6 => s.writeCommand v
  | 8 => s.writeAbort v
  | 13 => s.pop
  | 14 => s.writeData .p0 v
  | 15 => s.writeStat .p0 v
  | 16 => s.writeData .p1 v
  | 17 => s.writeStat .p1 v
  | 25 => s.clearLost
  | 26 => s.writeMediaCfg v
  | 27 => s.writeGateCfg v
  | 28 => s.writeStageCfg v
  | 29 => s.writePatrolCfg v
  | 30 => s.writeWindow .startL v
  | 31 => s.writeWindow .startH v
  | 32 => s.writeWindow .endL v
  | 33 => s.writeWindow .endH v
  | 36 => s.writeView .sel v
  | 37 => s.writeView .idx v
  | _ => s

end Sys2Proof.Machine
end

