-- ==== Sys2Proof/Machine/Bus.lean ====
section
/-! DEFINITION. Machine/Bus.lean: the meanings of the commands that are accesses of a register (chapter 10). With RESET_N
asserted each leaves the part as it is (R185). -/

namespace Sys2Proof.Machine

open Sys2Proof

/-- Meaning of READ: a write of 1 to COMMAND (R64). -/
def execRead (s : State) : Host.Outcome State Fault Refusal := .next (s.access (·.writeCommand 1))

/-- Meaning of WRITE: a write of 2 to COMMAND (R66). -/
def execWrite (s : State) : Host.Outcome State Fault Refusal := .next (s.access (·.writeCommand 2))

/-- Meaning of VERIFY: a write of 3 to COMMAND (R68). -/
def execVerify (s : State) : Host.Outcome State Fault Refusal := .next (s.access (·.writeCommand 3))

/-- Meaning of FLUSH: a write of 4 to COMMAND (R69). -/
def execFlush (s : State) : Host.Outcome State Fault Refusal := .next (s.access (·.writeCommand 4))

/-- Meaning of RELOCATE: a write of 5 to COMMAND (R70). -/
def execRelocate (s : State) : Host.Outcome State Fault Refusal := .next (s.access (·.writeCommand 5))

/-- Meaning of RELEASE_PINNED: a write of 6 to COMMAND (R71). -/
def execReleasePinned (s : State) : Host.Outcome State Fault Refusal := .next (s.access (·.writeCommand 6))

/-- Meaning of CLEAR_SUSPECT: a write of 7 to COMMAND (R19, R71). -/
def execClearSuspect (s : State) : Host.Outcome State Fault Refusal := .next (s.access (·.writeCommand 7))

/-- Meaning of PREPARE: a write of 8 to COMMAND (R72, R179). -/
def execPrepare (s : State) : Host.Outcome State Fault Refusal := .next (s.access (·.writeCommand 8))

/-- Meaning of BAD_OPCODE: a write of v to COMMAND (R57; log 21 for v from 1 to 8). -/
def execBadOpcode (v : Word) (s : State) : Host.Outcome State Fault Refusal := .next (s.access (·.writeCommand v))

/-- Meaning of ABORT (R73). -/
def execAbort (v : Word) (s : State) : Host.Outcome State Fault Refusal := .next (s.access (·.writeAbort v))

/-- Meaning of REPORT_POP (R81): whatever value is written. -/
def execReportPop (_v : Word) (s : State) : Host.Outcome State Fault Refusal := .next (s.access (·.pop))

/-- Meaning of DATA_READ (R90, R93). -/
def execDataRead (p : PortId) (s : State) : Host.Outcome State Fault Refusal := .next (s.access (·.readData p))

/-- Meaning of DATA_WRITE (R91, R93). -/
def execDataWrite (p : PortId) (v : Word) (s : State) : Host.Outcome State Fault Refusal :=
  .next (s.access (·.writeData p v))

/-- Meaning of STAT_WRITE (R191). -/
def execStatWrite (p : PortId) (v : Word) (s : State) : Host.Outcome State Fault Refusal :=
  .next (s.access (·.writeStat p v))

/-- Meaning of STATUS_WRITE (R188). -/
def execStatusWrite (v : Word) (s : State) : Host.Outcome State Fault Refusal := .next (s.access (·.writeStatus v))

/-- Meaning of LOST_BLOCKS_WRITE (R55): whatever value is written. -/
def execLostBlocksWrite (_v : Word) (s : State) : Host.Outcome State Fault Refusal := .next (s.access (·.clearLost))

/-- Meaning of GATE_REOPEN: a write of v to CONTROL (R127, R187; log 9). -/
def execGateReopen (v : Word) (s : State) : Host.Outcome State Fault Refusal := .next (s.access (·.writeControl v))

/-- Meaning of PATROL_ENABLE: a write of v to CONTROL (R157, R187; log 9). -/
def execPatrolEnable (v : Word) (s : State) : Host.Outcome State Fault Refusal := .next (s.access (·.writeControl v))

/-- Meaning of PATROL_DISABLE: a write of v to CONTROL (R164, R187; log 9). -/
def execPatrolDisable (v : Word) (s : State) : Host.Outcome State Fault Refusal := .next (s.access (·.writeControl v))

/-- Meaning of SOFT_RESET: a write of v to CONTROL (R181, R187; log 9). -/
def execSoftReset (v : Word) (s : State) : Host.Outcome State Fault Refusal := .next (s.access (·.writeControl v))

/-- Meaning of DISCARD: a write of v to CONTROL (R53, R187; log 9). -/
def execDiscard (v : Word) (s : State) : Host.Outcome State Fault Refusal := .next (s.access (·.writeControl v))

/-- Meaning of MEDIA_CFG_WRITE (R117). -/
def execMediaCfgWrite (v : Word) (s : State) : Host.Outcome State Fault Refusal := .next (s.access (·.writeMediaCfg v))

/-- Meaning of GATE_CFG_WRITE (R128). -/
def execGateCfgWrite (v : Word) (s : State) : Host.Outcome State Fault Refusal := .next (s.access (·.writeGateCfg v))

/-- Meaning of STAGE_CFG_WRITE (R44, R11). -/
def execStageCfgWrite (v : Word) (s : State) : Host.Outcome State Fault Refusal := .next (s.access (·.writeStageCfg v))

/-- Meaning of PATROL_CFG_WRITE (R155). -/
def execPatrolCfgWrite (v : Word) (s : State) : Host.Outcome State Fault Refusal := .next (s.access (·.writePatrolCfg v))

/-- Meaning of PATROL_WINDOW_WRITE (R155). -/
def execPatrolWindowWrite (r : WindowReg) (v : Word) (s : State) : Host.Outcome State Fault Refusal :=
  .next (s.access (·.writeWindow r v))

/-- Meaning of TABLE_VIEW_SELECT (R23). -/
def execTableViewSelect (r : ViewReg) (v : Word) (s : State) : Host.Outcome State Fault Refusal :=
  .next (s.access (·.writeView r v))

/-- Meaning of TABLE_D0_READ (R23). -/
def execTableD0Read (s : State) : Host.Outcome State Fault Refusal := .next (s.access (·.readView))

/-- Meaning of WIDE_LOW_READ (R186). -/
def execWideLowRead (r : WideReg) (s : State) : Host.Outcome State Fault Refusal := .next (s.access (·.readWide r))

/-- Meaning of REGISTER_WRITE (R185). -/
def execRegisterWrite (a : BitVec 6) (v : Word) (s : State) : Host.Outcome State Fault Refusal :=
  .next (s.access (·.writeReg a v))

end Sys2Proof.Machine
end

