-- ==== Sys2Proof/Machine/Internal.lean ====
section
/-! DEFINITION. Machine/Internal.lean: the meanings of the internal steps as commands of their own: the step is taken if it
is due, with what follows in the same event (log 3). -/

namespace Sys2Proof.Machine

open Sys2Proof

/-- Meaning of OP_ISSUE (R106, R108). -/
def execOpIssue (s : State) : Host.Outcome State Fault Refusal := .next (s.internal Ev.opIssue?)

/-- Meaning of COMMIT_START (R170). -/
def execCommitStart (s : State) : Host.Outcome State Fault Refusal := .next (s.internal Ev.commitStart?)

/-- Meaning of QUIESCE_END (R182). -/
def execQuiesceEnd (s : State) : Host.Outcome State Fault Refusal := .next (s.internal Ev.quiesceEnd?)

/-- Meaning of SLOT_ALLOCATION (R33). -/
def execSlotAllocation (s : State) : Host.Outcome State Fault Refusal := .next (s.internal Ev.slotAlloc?)

/-- Meaning of PORT_BINDING (R86, R87). -/
def execPortBinding (s : State) : Host.Outcome State Fault Refusal := .next (s.internal Ev.portBinding?)

/-- Meaning of DESTAGE_OFFER (R43). -/
def execDestageOffer (s : State) : Host.Outcome State Fault Refusal := .next (s.internal Ev.destageOffer?)

/-- Meaning of WRITE_THROUGH_JOB_CREATE (R38). -/
def execWriteThroughJobCreate (s : State) : Host.Outcome State Fault Refusal := .next (s.internal Ev.wtCreate?)

/-- Meaning of COMMAND_START (R63). -/
def execCommandStart (s : State) : Host.Outcome State Fault Refusal := .next (s.internal Ev.commandStart?)

/-- Meaning of REPAIR_ACTIVATION (R134). -/
def execRepairActivation (s : State) : Host.Outcome State Fault Refusal := .next (s.internal Ev.repairActivate?)

/-- Meaning of ADMISSION_WAIT_SERVE (R137). -/
def execAdmissionWaitServe (s : State) : Host.Outcome State Fault Refusal := .next (s.internal Ev.admissionServe?)

/-- Meaning of PATROL_RESUME (R161). -/
def execPatrolResume (s : State) : Host.Outcome State Fault Refusal := .next (s.internal Ev.patrolResume?)

/-- Meaning of FLUSH_COMPLETE (R50). -/
def execFlushComplete (s : State) : Host.Outcome State Fault Refusal := .next (s.internal Ev.flushComplete?)

end Sys2Proof.Machine
end

