-- ==== Sys2Proof/Machine/Resets.lean ====
section
/-! DEFINITION. Machine/Resets.lean: power-on and the reset line (R54, R132, R184). -/

namespace Sys2Proof.Machine

open Sys2Proof

/-- The Fault Gate at its reset values, its filter following the line (R132). -/
def Gate.afterReset (line : Bool) : Gate :=
  if line then State.inReset.gate.lineAsserted else State.inReset.gate

/-- Every block at its reset value, with the pins as they stand and the queue kept (R184; log 17). -/
def State.cleared (s : State) (low : Bool) : State :=
  { State.inReset with
    bus := { State.inReset.bus with resetLow := low }
    gate := Gate.afterReset s.gate.line
    pending := s.pending }

/-- STARTING is entered and the first IDENTIFY is sent (R103, R184). -/
def State.started (s : State) : State := { s with media := s.media.identify }

/-- The slots the reset line counts as lost (R54). -/
def Slot.lostByLine (x : Slot) : Bool := x.st == .dirty || (x.st == .writing && !x.superseded) || x.st == .pinned

/-- POWER_ON (R184): with RESET_N held asserted the part stays reset (log 17). -/
def State.powerOn (s : State) : State :=
  if s.bus.resetLow then s.cleared true else (s.cleared false).started

/-- RESET_LINE_ASSERT (R54, R184). -/
def State.resetAsserted (s : State) : State :=
  if s.bus.resetLow then s
  else { s.cleared true with buf := { State.inReset.buf with lost := s.buf.slots.countP Slot.lostByLine } }

/-- RESET_LINE_RELEASE (R184). -/
def State.resetReleased (s : State) : State :=
  if s.bus.resetLow then State.started { s with bus.resetLow := false } else s

/-- Meaning of POWER_ON. -/
def execPowerOn (s : State) : Host.Outcome State Fault Refusal := .next s.powerOn

/-- Meaning of RESET_LINE_ASSERT. -/
def execResetLineAssert (s : State) : Host.Outcome State Fault Refusal := .next s.resetAsserted

/-- Meaning of RESET_LINE_RELEASE. -/
def execResetLineRelease (s : State) : Host.Outcome State Fault Refusal := .next s.resetReleased

end Sys2Proof.Machine
end

