-- ==== Sys2Proof/Machine/Signals.lean ====
section
/-! DEFINITION. Machine/Signals.lean: the meanings of the response frame, the timer expiries and the fault line (R100,
R102, R103, R122, R126, R160, R173). -/

namespace Sys2Proof.Machine

open Sys2Proof

/-- A response frame: stray, or matched and taken (R100). -/
def State.response (f : Response) (s : State) : State :=
  match s.media.matched f with
  | none => s
  | some o => s.event (fun e => e.answered o f.body)

/-- The op timer expires, if it runs: a TIMEOUT trip input (R102). -/
def State.opExpires (s : State) : State :=
  if s.media.opTimer.isSome then s.event (fun e => e.tripInput .timeout) else s

/-- The IDENTIFY retry timer expires, if it runs (R103): an outstanding IDENTIFY is abandoned, and a new one goes out. -/
def State.identExpires (s : State) : State :=
  if s.media.identTimer && s.store.run == .starting && !s.bus.resetLow then { s with media := s.media.identify } else s

/-- UNIT_FAULT_N becomes asserted (R122). With RESET_N asserted the filter follows the line all the same (R132). -/
def State.lineAsserts (s : State) : State :=
  if s.gate.line then s
  else if s.bus.resetLow then { s with gate := s.gate.lineAsserted }
  else s.event Ev.lineAssert

/-- UNIT_FAULT_N is released (R122, R126). -/
def State.lineReleases (s : State) : State := if s.gate.line then { s with gate := s.gate.lineReleased } else s

/-- The filter width has passed, if it is being measured (R122). -/
def State.filterExpires (s : State) : State :=
  if !s.gate.filter.isMeasuring then s
  else if s.bus.resetLow then { s with gate.filter := .asserted }
  else s.event Ev.filterExpires

/-- The hold timer expires, if it runs (R126). -/
def State.holdExpires (s : State) : State := if s.gate.holdTimer.isSome then s.event Ev.holdExpires else s

/-- The commit retry timer expires, if it runs (R173): a commit starts if it may (R170). -/
def State.retryExpires (s : State) : State :=
  if s.store.retryTimer then s.event (fun e => { e with store.retryTimer := false }) else s

/-- The patrol interval timer expires, if it runs (R160). -/
def State.intervalExpires (s : State) : State :=
  if s.patrol.timer.isSome then s.event Ev.intervalExpires else s

/-- Meaning of RESPONSE_FRAME (R100). -/
def execResponseFrame (f : Response) (s : State) : Host.Outcome State Fault Refusal := .next (s.response f)

/-- Meaning of OP_TIMER_EXPIRY (R102). -/
def execOpTimerExpiry (s : State) : Host.Outcome State Fault Refusal := .next s.opExpires

/-- Meaning of IDENTIFY_RETRY_EXPIRY (R103). -/
def execIdentifyRetryExpiry (s : State) : Host.Outcome State Fault Refusal := .next s.identExpires

/-- Meaning of FAULT_LINE_ASSERT (R122). -/
def execFaultLineAssert (s : State) : Host.Outcome State Fault Refusal := .next s.lineAsserts

/-- Meaning of FAULT_LINE_RELEASE (R122). -/
def execFaultLineRelease (s : State) : Host.Outcome State Fault Refusal := .next s.lineReleases

/-- Meaning of FILTER_WIDTH_EXPIRY (R122). -/
def execFilterWidthExpiry (s : State) : Host.Outcome State Fault Refusal := .next s.filterExpires

/-- Meaning of HOLD_TIMER_EXPIRY (R126). -/
def execHoldTimerExpiry (s : State) : Host.Outcome State Fault Refusal := .next s.holdExpires

/-- Meaning of COMMIT_RETRY_EXPIRY (R173). -/
def execCommitRetryExpiry (s : State) : Host.Outcome State Fault Refusal := .next s.retryExpires

/-- Meaning of PATROL_INTERVAL_EXPIRY (R160). -/
def execPatrolIntervalExpiry (s : State) : Host.Outcome State Fault Refusal := .next s.intervalExpires

end Sys2Proof.Machine
end

