-- ==== Sys2Proof/Machine/Dispatch.lean ====
section
/-! DEFINITION. Machine/Dispatch.lean: one arm per command. -/

namespace Sys2Proof.Machine

open Sys2Proof

def exec (i : Instr) (s : State) : Host.Outcome State Fault Refusal :=
  match i with
  | .powerOn => Sys2Proof.Machine.execPowerOn s
  | .resetLineAssert => Sys2Proof.Machine.execResetLineAssert s
  | .resetLineRelease => Sys2Proof.Machine.execResetLineRelease s
  | .read => Sys2Proof.Machine.execRead s
  | .write => Sys2Proof.Machine.execWrite s
  | .verify => Sys2Proof.Machine.execVerify s
  | .flush => Sys2Proof.Machine.execFlush s
  | .relocate => Sys2Proof.Machine.execRelocate s
  | .releasePinned => Sys2Proof.Machine.execReleasePinned s
  | .clearSuspect => Sys2Proof.Machine.execClearSuspect s
  | .prepare => Sys2Proof.Machine.execPrepare s
  | .badOpcode v => Sys2Proof.Machine.execBadOpcode v s
  | .abort v => Sys2Proof.Machine.execAbort v s
  | .reportPop v => Sys2Proof.Machine.execReportPop v s
  | .dataRead p => Sys2Proof.Machine.execDataRead p s
  | .dataWrite p v => Sys2Proof.Machine.execDataWrite p v s
  | .statWrite p v => Sys2Proof.Machine.execStatWrite p v s
  | .statusWrite v => Sys2Proof.Machine.execStatusWrite v s
  | .lostBlocksWrite v => Sys2Proof.Machine.execLostBlocksWrite v s
  | .gateReopen v => Sys2Proof.Machine.execGateReopen v s
  | .patrolEnable v => Sys2Proof.Machine.execPatrolEnable v s
  | .patrolDisable v => Sys2Proof.Machine.execPatrolDisable v s
  | .softReset v => Sys2Proof.Machine.execSoftReset v s
  | .discard v => Sys2Proof.Machine.execDiscard v s
  | .mediaCfgWrite v => Sys2Proof.Machine.execMediaCfgWrite v s
  | .gateCfgWrite v => Sys2Proof.Machine.execGateCfgWrite v s
  | .stageCfgWrite v => Sys2Proof.Machine.execStageCfgWrite v s
  | .patrolCfgWrite v => Sys2Proof.Machine.execPatrolCfgWrite v s
  | .patrolWindowWrite r v => Sys2Proof.Machine.execPatrolWindowWrite r v s
  | .tableViewSelect r v => Sys2Proof.Machine.execTableViewSelect r v s
  | .tableD0Read => Sys2Proof.Machine.execTableD0Read s
  | .wideLowRead r => Sys2Proof.Machine.execWideLowRead r s
  | .registerWrite a v => Sys2Proof.Machine.execRegisterWrite a v s
  | .responseFrame f => Sys2Proof.Machine.execResponseFrame f s
  | .opTimerExpiry => Sys2Proof.Machine.execOpTimerExpiry s
  | .identifyRetryExpiry => Sys2Proof.Machine.execIdentifyRetryExpiry s
  | .faultLineAssert => Sys2Proof.Machine.execFaultLineAssert s
  | .faultLineRelease => Sys2Proof.Machine.execFaultLineRelease s
  | .filterWidthExpiry => Sys2Proof.Machine.execFilterWidthExpiry s
  | .holdTimerExpiry => Sys2Proof.Machine.execHoldTimerExpiry s
  | .commitRetryExpiry => Sys2Proof.Machine.execCommitRetryExpiry s
  | .patrolIntervalExpiry => Sys2Proof.Machine.execPatrolIntervalExpiry s
  | .opIssue => Sys2Proof.Machine.execOpIssue s
  | .commitStart => Sys2Proof.Machine.execCommitStart s
  | .quiesceEnd => Sys2Proof.Machine.execQuiesceEnd s
  | .slotAllocation => Sys2Proof.Machine.execSlotAllocation s
  | .portBinding => Sys2Proof.Machine.execPortBinding s
  | .destageOffer => Sys2Proof.Machine.execDestageOffer s
  | .writeThroughJobCreate => Sys2Proof.Machine.execWriteThroughJobCreate s
  | .commandStart => Sys2Proof.Machine.execCommandStart s
  | .repairActivation => Sys2Proof.Machine.execRepairActivation s
  | .admissionWaitServe => Sys2Proof.Machine.execAdmissionWaitServe s
  | .patrolResume => Sys2Proof.Machine.execPatrolResume s
  | .flushComplete => Sys2Proof.Machine.execFlushComplete s

end Sys2Proof.Machine
end

