-- ==== Sys2Proof/Safety.lean ====
section
/-! DEFINITION. Safety.lean: what holds of the part between events, and the conditions of the
acceptance tests, in the words of the rules. -/

namespace Sys2Proof.Machine

open Sys2Proof

/-- Every configuration field is in its range (Table 10-9, R192). -/
structure State.ConfigLegal (s : State) : Prop where
  readRetries : s.media.readRetries ≤ 7
  relocLevel : 1 ≤ s.media.relocLevel ∧ s.media.relocLevel ≤ 8
  opTimeout : 1 ≤ s.media.opTimeout ∧ s.media.opTimeout ≤ 25
  tripLimit : 1 ≤ s.gate.tripLimit ∧ s.gate.tripLimit ≤ 15
  highWater : 8 ≤ s.buf.highWater ∧ s.buf.highWater ≤ 56
  spareLow : s.trans.spareLow ≤ 64
  burst : 1 ≤ s.patrol.burst ∧ s.patrol.burst ≤ 16
  interval : s.patrol.interval ≤ 255

/-- The destage list holds exactly the DIRTY slots, each once (R29); the clean list holds exactly the CLEAN slots whose
claim count is 0, each once (R30); there are 64 slots (R27). -/
structure Buf.ListsExact (b : Buf) : Prop where
  size : b.slots.length = Config.slotCount
  destageOnce : b.destage.Nodup
  destageExact : ∀ i, i ∈ b.destage ↔ (b.slot i).st = .dirty
  cleanOnce : b.clean.Nodup
  cleanExact : ∀ i, i ∈ b.clean ↔ ((b.slot i).st = .clean ∧ (b.slot i).claims = 0)

/-- Records and owed completions together never exceed 32 (R79). -/
def State.ReportRoom (s : State) : Prop := s.rep.recs.length + s.cmd.owedCount ≤ Config.reportPlaces

/-- The tags of the completions in a list of records. -/
def completionTags (l : List Report) : List Tag :=
  l.filterMap (fun r => match r with | .completion t _ _ _ => some t | .notice _ => none)

/-- The acceptance order list holds exactly the tags in QUEUED, ACTIVE or ABORTING, each once (R61); a tag is REPORTED
exactly when the report queue holds one completion that carries it, and no other completion stands there (R79). -/
structure State.TagsExact (s : State) : Prop where
  orderOnce : s.cmd.order.Nodup
  orderExact : ∀ t, t ∈ s.cmd.order ↔ (s.cmd.tag t).owed = true
  completionOnce : (completionTags s.rep.recs).Nodup
  completionExact : ∀ t, t ∈ completionTags s.rep.recs ↔ (s.cmd.tag t).st = .reported

/-- While the gate is closed no op is outstanding (R120). With it, what keeps it so: in STARTING the gate is OPEN (R121),
STARTING is no return state of a quiesce (R181), and with RESET_N asserted the run state stands at STARTING (R184). -/
structure State.ClosedIdle (s : State) : Prop where
  idle : s.gate.st ≠ .opened → s.media.link = none
  startingOpen : s.store.run = .starting → s.gate.st = .opened
  returns : s.store.ret ≠ some .starting
  inReset : s.bus.resetLow = true → s.store.run = .starting

/-- No two entries of the repair queue are for one LBA (R133). -/
def State.RepairsDistinct (s : State) : Prop := (s.rpr.queue.map (·.lba)).Nodup

/-! ## The translation tables -/

/-- The tables are as R4, R7 and R13 say: as many spare states as S, shared out among the four states, with at most one
RESERVED; remap entries in strictly ascending LBA order, each for a spare of its own; the MAPPED spares are those that entries
name; at most 32 suspect entries, no two for one LBA. That their LBAs are below L and their spares below S is State.InRange. -/
structure State.TablesExact (s : State) : Prop where
  size : s.trans.spares.length = s.trans.spareCount
  conserved : s.trans.spares.countP (· == .free) + s.trans.spares.countP (· == .reserved)
      + s.trans.spares.countP (· == .mapped) + s.trans.spares.countP (· == .retired) = s.trans.spareCount
  reservedOne : s.trans.spares.countP (· == .reserved) ≤ 1
  ascending : s.trans.remap.Pairwise (fun x y => x.lba < y.lba)
  spareOnce : (s.trans.remap.map (·.spare)).Nodup
  mappedExact : ∀ i, s.trans.spares[i]? = some .mapped ↔ (i < s.trans.spareCount ∧ ∃ x ∈ s.trans.remap, x.spare = i)
  suspectRoom : s.trans.suspects.length ≤ Config.suspectPlaces
  suspectOnce : (s.trans.suspects.map (·.lba)).Nodup

/-- The jobs of the active repair: in the REPAIR list and on the link (R134). -/
def Media.repairJobs (m : Media) : List Job := m.repairQ ++ m.linkJob.toList.filter (·.owner == .repair)

/-- The owner, kind, target and data place that a job has by its class (Tables 5-2 and 5-3): a TABLE job works on fixed blocks
for the Table Store; a HOST job is a load into a slot, of a command or detached, a VERIFY of a command, or a write-through job
of a slot; a destage job is the write job of a slot; a REPAIR job reads an LBA or writes or verifies a spare; a PATROL job is the
VERIFY of an LBA. -/
def Job.Shaped (j : Job) : Prop :=
  let byTag : Prop := ∃ t, j.owner = .tag t
  let onLba : Prop := ∃ n, j.target = .lba n
  let onPba : Prop := ∃ p, j.target = .pba p
  let ofSlot : Prop := ∃ i, j.place = some (.slot i)
  match j.cls, j.kind with
  | .table, .read => j.owner = .store ∧ onPba
  | .table, .write => j.owner = .store ∧ onPba
  | .table, .verify => False
  | .host, .read => (j.owner = .staging ∨ byTag) ∧ onLba ∧ ofSlot
  | .host, .verify => byTag ∧ onLba ∧ j.place = none
  | .host, .write => byTag ∧ onLba ∧ ofSlot
  | .destage, .write => j.owner = .staging ∧ onLba ∧ ofSlot
  | .destage, .read => False
  | .destage, .verify => False
  | .repair, .read => j.owner = .repair ∧ onLba
  | .repair, .write => j.owner = .repair ∧ onPba
  | .repair, .verify => j.owner = .repair ∧ onPba
  | .patrol, .verify => j.owner = .patrol ∧ onLba ∧ j.place = none
  | .patrol, .read => False
  | .patrol, .write => False

/-- Jobs stand where their class and owner put them (R104, R105), and are as their class makes them, the one of the op on the
link too, whether or not it still has its owner; the op is the one that the job asks for (R108). -/
structure Media.JobsPlaced (m : Media) : Prop where
  table : ∀ j ∈ m.tableQ, j.cls = .table ∧ j.owner = .store
  host : ∀ j ∈ m.hostQ, j.cls = .host ∧ (j.owner = .staging ∨ ∃ t, j.owner = .tag t)
  destage : ∀ j ∈ m.destageQ, j.cls = .destage ∧ j.owner = .staging
  repair : ∀ j ∈ m.repairQ, j.cls = .repair ∧ j.owner = .repair
  patrol : ∀ j ∈ m.patrolQ, j.cls = .patrol ∧ j.owner = .patrol
  link : ∀ j, m.linkJob = some j →
    (j.cls = .table ∧ j.owner = .store) ∨ (j.cls = .host ∧ (j.owner = .staging ∨ ∃ t, j.owner = .tag t))
      ∨ (j.cls = .destage ∧ j.owner = .staging) ∨ (j.cls = .repair ∧ j.owner = .repair)
      ∨ (j.cls = .patrol ∧ j.owner = .patrol)
  shaped : ∀ j ∈ m.tableQ ++ m.hostQ ++ m.destageQ ++ m.repairQ ++ m.patrolQ, j.Shaped
  linkShaped : ∀ o j, m.link = some o → o.job = some j → j.Shaped ∧ o.op = j.opOf

/-- What keeps the tables exact: a spare the active repair holds is named by no entry, a RESERVED spare is the one it holds,
and in the steps before a reservation and after the update it holds none (R8, R134); the active repair has at most one job,
and the one its step waits for (R134); a candidate of the load is valid (R177); before READY nothing that could
ask for a repair is there (R57, R107, R175). -/
structure State.TablesGuarded (s : State) : Prop where
  placed : s.media.JobsPlaced
  spareApart : ∀ a r, s.rpr.active = some a → a.spare = some r → ∀ x ∈ s.trans.remap, x.spare ≠ r
  reservedHeld : ∀ i, s.trans.spares[i]? = some .reserved → ∃ a, s.rpr.active = some a ∧ a.spare = some i
  spareNone : ∀ a, s.rpr.active = some a → (a.step = .waitWrite ∨ a.step = .read ∨ a.step = .commitWait) → a.spare = none
  repairJob : s.media.repairJobs = [] ∨ ∃ j a, s.media.repairJobs = [j] ∧ s.rpr.active = some a ∧ s.rpr.queue ≠ []
    ∧ ((j.kind = .read ∧ a.step = .read) ∨ (j.kind = .write ∧ a.step = .spareWrite ∧ a.spare.isSome)
      ∨ (j.kind = .verify ∧ a.step = .spareVerify ∧ a.spare.isSome))
  candidate : ∀ l img, s.store.load = some l → l.candidate = some img → imageSound img = true
  loading : s.store.load.isSome → s.store.run = .loading
  returns : ∀ r, s.store.ret = some r → r = .ready ∨ r = .unprepared
  identify : ∀ o, s.media.link = some o → o.job = none → s.store.run = .starting
  held : s.bus.resetLow = true → s.store.run = .starting
  early : (s.store.run = .starting ∨ s.store.run = .loading) →
    s.rpr.queue = [] ∧ s.rpr.active = none ∧ s.rpr.wait = [] ∧ (∀ r ∈ s.cmd.tags, r.owed = false)
      ∧ ∀ o, s.media.link = some o → o.orphan ≠ some .patrolQuiesce ∧ ∀ j, o.orphan = none → o.job = some j → j.owner = .store

/-- Every LBA that the part works with is below l, and every spare below n: those of the remap table and the suspect list
(R4, R13), and, since the tables take theirs from them, those of the repair queue and the active repair, the slots in use, the
allocator queue, the jobs, the patrol window, and the commands that are owed or that a port or a wait names (R27, R57, R133,
R155, R157). -/
structure State.RangedBy (s : State) (l n : Nat) : Prop where
  remap : ∀ x ∈ s.trans.remap, x.lba < l ∧ x.spare < n
  suspects : ∀ x ∈ s.trans.suspects, x.lba < l
  entries : ∀ x ∈ s.rpr.queue, x.lba < l
  admission : ∀ t ∈ s.rpr.wait, (s.cmd.tag t).lba < l
  spare : ∀ a r, s.rpr.active = some a → a.spare = some r → r < n
  slots : ∀ x ∈ s.buf.slots, x.st ≠ .free → ∀ m, x.lba = some m → m < l
  requests : ∀ q ∈ s.buf.allocQ, q.lba < l
  jobs : ∀ j ∈ s.media.hostQ ++ s.media.destageQ ++ s.media.patrolQ ++ s.media.linkJob.toList,
    j.owner = .repair ∨ j.owner = .store ∨ ∃ m, j.target = .lba m ∧ m < l
  late : ∀ o j, s.media.link = some o → o.orphan = some .patrolQuiesce → o.job = some j → ∃ m, j.target = .lba m ∧ m < l
  commands : ∀ t, ((s.cmd.tag t).owed = true ∨ t ∈ s.ports.wait ∨ ∃ p b, (s.ports.get p).bound = some b ∧ b.tag = t) →
    (s.cmd.tag t).op ≠ some .prepare → (s.cmd.tag t).lba + (s.cmd.tag t).count ≤ l
      ∧ (((s.cmd.tag t).op = some .read ∨ (s.cmd.tag t).op = some .write ∨ (s.cmd.tag t).op = some .verify) →
          1 ≤ (s.cmd.tag t).count)
      ∧ (((s.cmd.tag t).op = some .relocate ∨ (s.cmd.tag t).op = some .releasePinned
          ∨ (s.cmd.tag t).op = some .clearSuspect) → (s.cmd.tag t).lba < l)
  window : s.patrol.st ≠ .off → s.patrol.first ≤ s.patrol.last ∧ s.patrol.last < l

/-- Every LBA that the part works with is below L, and every spare below S (State.RangedBy). With it, what keeps it so: patrol
has at most one job, and only while it is PENDING or RUNNING (R156), only a RUNNING block finishes after a disable (R164), and
the op whose answer a quiesce has left to patrol is a patrol VERIFY (R165); no PREPARE waits for a port or has one (R86); L is 0 until
the load ends (R1, R175); and while a PREPARE is in flight nothing that has an LBA is there, and no command can be accepted
(R57, R72, R179). A job of the repair or of the Table Store has its place from what they keep. -/
structure State.InRange (s : State) : Prop where
  ranged : s.RangedBy s.trans.blocks s.trans.spareCount
  bound : ∀ p b, (s.ports.get p).bound = some b → (s.cmd.tag b.tag).op ≠ some .prepare
  waiting : ∀ t ∈ s.ports.wait, (s.cmd.tag t).op ≠ some .prepare
  patrolOne : (s.media.patrolQ ++ s.media.linkJob.toList.filter (·.owner == .patrol)).length ≤ 1
  patrolWaits : s.media.patrolQ ≠ [] → s.patrol.st = .pending ∨ s.patrol.st = .running
  patrolRuns : ∀ j, s.media.linkJob = some j → j.owner = .patrol → s.patrol.st = .running
  patrolFinishes : s.patrol.finishing = true → s.patrol.st = .running
  patrolLate : ∀ o j, s.media.link = some o → o.orphan = some .patrolQuiesce → o.job = some j → j.owner = .patrol
  unloaded : s.store.run = .starting ∨ s.store.run = .loading → s.trans.blocks = 0
  preparing : s.store.prep ≠ none → s.RangedBy 0 0
    ∧ (s.store.run = .quiesce ∨ ∃ r ∈ s.cmd.tags, r.op = some .prepare ∧ r.st = .active)

/-! ## Write jobs and the repair queue -/

/-- At most one write job exists for an LBA (R38), and at most one destage job (R43); the repair queue holds at most 8
entries (R133). With it, what keeps it so: a write job of an LBA is on the link only while a place is free (R107). -/
structure State.WriteJobsSingle (s : State) : Prop where
  placed : s.media.JobsPlaced
  fixed : ∀ j ∈ s.media.tableQ ++ s.media.repairQ ++ s.media.patrolQ, ∀ n, j.target ≠ .lba n ∨ j.kind ≠ .write
  linkFixed : ∀ j n, s.media.linkJob = some j → j.kind = .write → j.target = .lba n → j.cls = .host ∨ j.cls = .destage
  once : (s.media.writeJobs.map (·.target)).Nodup
  destageOnce : (s.media.destageQ ++ s.media.linkJob.toList.filter (·.cls == .destage)).length ≤ 1
  room : s.rpr.queue.length ≤ Config.repairPlaces
  linkRoom : ∀ j, s.media.linkJob = some j → j.isLbaWrite = true → s.rpr.queue.length < Config.repairPlaces

/-! ## Current slots -/

/-- The jobs that work on slots: loads and write jobs of the HOST and destage classes. -/
def Media.slotJobs (m : Media) : List Job :=
  m.hostQ ++ m.destageQ ++ m.linkJob.toList.filter (fun j => j.cls == .host || j.cls == .destage)

/-- The slots that jobs and REMAP_WRITE entries work on. -/
def State.slotsAtWork (s : State) : List SlotIx :=
  s.media.slotJobs.filterMap Job.slot? ++ (s.rpr.queue.filter (·.kind == .remapWrite)).filterMap (·.slot)

/-- An LBA has at most one current slot (R28). With it, what keeps it so: the lists of R29 and R30 are exact; a load works
on a LOADING slot, a write job on a WRITING slot of its own, a REMAP_WRITE repair on a WRITING slot that it owns (R39,
R41, R45); under a LATCHED gate no HOST job waits (R129, R130). -/
structure State.SlotsExact (s : State) : Prop where
  lists : s.buf.ListsExact
  placed : s.media.JobsPlaced
  currentOnce : ∀ i k n, (s.buf.slot i).current = true → (s.buf.slot k).current = true →
    (s.buf.slot i).lba = some n → (s.buf.slot k).lba = some n → i = k
  apart : s.slotsAtWork.Nodup
  loads : ∀ j ∈ s.media.slotJobs, j.kind = .read → ∃ i, j.place = some (.slot i) ∧ (s.buf.slot i).st = .loading
  verifies : ∀ j ∈ s.media.slotJobs, j.kind = .verify → j.place = none ∧ ∃ t, j.owner = .tag t
  writes : ∀ j ∈ s.media.slotJobs, j.kind = .write → ∃ i, j.place = some (.slot i) ∧ (s.buf.slot i).st = .writing
    ∧ (∀ t, j.owner = .tag t ↔ (s.buf.slot i).owner = some (.tag t)) ∧ (s.buf.slot i).owner ≠ some .repair
  repairs : ∀ x ∈ s.rpr.queue, x.kind = .remapWrite →
    ∃ i, x.slot = some i ∧ (s.buf.slot i).st = .writing ∧ (s.buf.slot i).owner = some .repair
  latched : s.gate.st = .latched → s.media.hostQ = [] ∧ s.media.link = none

/-! ## What serves a command -/

/-- What serves a command is there only while the command needs it (R40, R51, R66, R68, R86, R94, R133, R137, R138): a bound
port has an ACTIVE READ or WRITE, whose blocks done and owed lie behind the block at the port; a request in the allocator
queue and a FILLING slot are of a command with a port; a VERIFY job is of an ACTIVE VERIFY; a WRITE is owed a block only until
it completes; a claim is of an ACTIVE READ; an attached RELOCATE is ACTIVE and attached once; a QUEUED command has done nothing
yet (R59); and a PREPARE is ACTIVE in its acceptance event (R179). -/
structure State.WorkServes (s : State) : Prop where
  bound : ∀ p b, (s.ports.get p).bound = some b → (s.cmd.tag b.tag).st = .active ∧ b.block < (s.cmd.tag b.tag).count
  reads : ∀ p b, (s.ports.get p).bound = some b → b.dir = .read → (s.cmd.tag b.tag).op = some .read
    ∧ (s.cmd.tag b.tag).looked ≤ (s.cmd.tag b.tag).count
    ∧ ∀ c ∈ (s.cmd.tag b.tag).claims, c.1 < (s.cmd.tag b.tag).looked
  writes : ∀ p b, (s.ports.get p).bound = some b → b.dir = .write → (s.cmd.tag b.tag).op = some .write
    ∧ (s.cmd.tag b.tag).failure = none ∧ (s.cmd.tag b.tag).done + s.owedBlocks b.tag ≤ b.block
  boundOnce : ∀ b c, s.ports.p0.bound = some b → s.ports.p1.bound = some c → b.tag ≠ c.tag
  waiting : ∀ t ∈ s.ports.wait, (s.cmd.tag t).st = .queued
    ∧ ((s.cmd.tag t).op = some .read ∨ (s.cmd.tag t).op = some .write)
  fills : ∀ q ∈ s.buf.allocQ, q.kind = .fill → ∃ p b, (s.ports.get p).bound = some b ∧ b.tag = q.tag ∧ b.dir = .write
  loads : ∀ q ∈ s.buf.allocQ, q.kind = .load → (∃ p b, (s.ports.get p).bound = some b ∧ b.tag = q.tag ∧ b.dir = .read)
    ∧ (s.cmd.tag q.tag).looked = q.block + 1 ∧ ∀ c ∈ (s.cmd.tag q.tag).claims, c.1 < q.block
  requestOnce : (s.buf.allocQ.map (·.tag)).Nodup
  filling : ∀ x ∈ s.buf.slots, x.st = .filling → ∃ p b, (s.ports.get p).bound = some b ∧ b.dir = .write
    ∧ x.owner = some (.tag b.tag) ∧ ∀ q ∈ s.buf.allocQ, q.tag ≠ b.tag
  fillingOnce : ((s.buf.slots.filter (·.st == .filling)).map (·.owner)).Nodup
  through : ∀ t, s.owedBlocks t ≠ 0 → (s.cmd.tag t).op = some .write
    ∧ ((s.cmd.tag t).st = .active ∨ (s.cmd.tag t).st = .aborting)
    ∧ ((s.cmd.tag t).st = .active → (s.cmd.tag t).failure = none →
        (s.cmd.tag t).done + s.owedBlocks t ≤ (s.cmd.tag t).count)
  verifies : ∀ t, s.owedVerifies t ≠ 0 → (s.cmd.tag t).op = some .verify ∧ (s.cmd.tag t).st = .active
    ∧ (s.cmd.tag t).done + s.owedVerifies t ≤ (s.cmd.tag t).looked ∧ (s.cmd.tag t).looked ≤ (s.cmd.tag t).count
  claims : ∀ t, (s.cmd.tag t).claims ≠ [] → (s.cmd.tag t).op = some .read ∧ (s.cmd.tag t).st = .active
  relocates : ∀ t ∈ s.rpr.queue.filterMap (·.relTag) ++ s.rpr.wait,
    (s.cmd.tag t).op = some .relocate ∧ (s.cmd.tag t).st = .active
  relocateOnce : (s.rpr.queue.filterMap (·.relTag) ++ s.rpr.wait).Nodup
  formerAlone : ∀ x ∈ s.rpr.queue, x.wtTag ≠ none → x.wtFormer = none
  throughKind : ∀ x ∈ s.rpr.queue, x.owedTo ≠ none → x.kind = .remapWrite
  noWriteJob : ∀ x ∈ s.rpr.queue, x.kind = .remapWrite → ∀ j ∈ s.media.writeJobs, j.target ≠ .lba x.lba
  active : s.rpr.active ≠ none → s.rpr.queue ≠ []
  queued : ∀ t, (s.cmd.tag t).st = .queued → (s.cmd.tag t).failure = none ∧ (s.cmd.tag t).done = 0
    ∧ (s.cmd.tag t).looked = 0 ∧ (s.cmd.tag t).claims = []
  prepare : ∀ t, (s.cmd.tag t).op = some .prepare → (s.cmd.tag t).st ≠ .queued

/-! ## An op that is answered -/

/-- The op on the link is that of a job that has its owner, and RESET_N is released (R98, R108). -/
structure State.Awaits (s : State) (o : Outstanding) (j : Job) : Prop where
  released : s.bus.resetLow = false
  link : s.media.link = some o
  job : o.job = some j
  owned : o.orphan = none
  op : o.op = j.opOf

/-- The part once an answer that is no UNIT_FAULT has been taken, before its outcome is applied: the link is idle, the op
timer stopped and the trip counter 0 (R98, R102, R125). -/
def State.answerTaken (s : State) : Ev :=
  { s.begin with
    media := { s.media with link := none, opTimer := none }
    gate := { s.gate with trips := 0 } }

/-- A level is a pass for job j: the level itself at the first attempt and 7 after a retry is below RELOC_LEVEL, or
RELOC_LEVEL is 8 (R110). -/
def State.LevelPasses (s : State) (j : Job) (level : Nat) : Prop :=
  s.media.relocLevel = 8 ∨ (if j.attempts = 0 then level else 7) < s.media.relocLevel

/-- b is a GOOD answer of j's op, and a pass where it has a level. -/
def State.AnswersWell (s : State) (j : Job) : Body → Prop
  | .goodRead level d => j.opOf = .read ∧ level ≤ 7 ∧ d.wf = true ∧ s.LevelPasses j level
  | .goodVerify level => j.opOf = .verify ∧ level ≤ 7 ∧ s.LevelPasses j level
  | .goodWrite => j.opOf = .write
  | .goodIdentify _ _ | .unrecovered | .writeFault | .unitFault => False

/-- b is a GOOD answer of j's op with a level that is no pass. -/
def State.AnswersWeak (s : State) (j : Job) : Body → Prop
  | .goodRead level d => j.opOf = .read ∧ level ≤ 7 ∧ d.wf = true ∧ ¬ s.LevelPasses j level
  | .goodVerify level => j.opOf = .verify ∧ level ≤ 7 ∧ ¬ s.LevelPasses j level
  | .goodWrite | .goodIdentify _ _ | .unrecovered | .writeFault | .unitFault => False

/-- b is the final failure of j's op: a WRITE_FAULT, or an UNRECOVERED with no retry left (R109). -/
def State.AnswersFailed (s : State) (j : Job) : Body → Prop
  | .writeFault => j.opOf = .write
  | .unrecovered => (j.opOf = .read ∨ j.opOf = .verify) ∧ s.media.readRetries < j.attempts + 1
  | .goodRead _ _ | .goodVerify _ | .goodWrite | .goodIdentify _ _ | .unitFault => False

/-! ## The acceptance tests (Table 3-2) -/

/-- The value a command writes to COMMAND: the opcodes 1 to 8, or any other value (R56, R57). -/
def commandWord : Instr → Option Word
  | .read => some 1
  | .write => some 2
  | .verify => some 3
  | .flush => some 4
  | .relocate => some 5
  | .releasePinned => some 6
  | .clearSuspect => some 7
  | .prepare => some 8
  | .badOpcode v => some v
  | _ => none

/-- Test 2: the run state does not admit the opcode. -/
def State.NotAdmitted (s : State) (o : Opcode) : Prop :=
  ¬ (s.store.run = .ready ∨ (s.store.run = .unprepared ∧ o = .prepare))

/-- A condition of R72 is unmet: a tag is owed, a slot is DIRTY, WRITING, PINNED or LOADING, the repair queue holds an
entry, or a commit runs. -/
def State.PrepareBarred (s : State) : Prop :=
  (∃ r ∈ s.cmd.tags, r.st = .queued ∨ r.st = .active ∨ r.st = .aborting)
    ∨ (∃ x ∈ s.buf.slots, x.st = .dirty ∨ x.st = .writing ∨ x.st = .pinned ∨ x.st = .loading)
    ∨ s.rpr.queue ≠ [] ∨ s.store.commit ≠ none

/-- Test 3: a PREPARE is QUEUED or ACTIVE, or the opcode is PREPARE and a condition of R72 is unmet. -/
def State.TestBusy (s : State) (o : Opcode) : Prop :=
  (∃ r ∈ s.cmd.tags, r.op = some .prepare ∧ (r.st = .queued ∨ r.st = .active)) ∨ (o = .prepare ∧ s.PrepareBarred)

/-- Test 4: a parameter does not fit the opcode. -/
def State.TestBadParameter (s : State) (o : Opcode) : Prop :=
  ((o = .read ∨ o = .write ∨ o = .verify) ∧
      (s.cmd.count.toNat = 0 ∨ 64 < s.cmd.count.toNat ∨ s.trans.blocks < s.cmd.lbaReg + s.cmd.count.toNat))
    ∨ ((o = .read ∨ o = .write) ∧ fieldOf s.cmd.flags 0 2 = 3)
    ∨ (o ≠ .write ∧ fieldOf s.cmd.flags 2 1 = 1)
    ∨ ((o = .relocate ∨ o = .releasePinned ∨ o = .clearSuspect) ∧ s.trans.blocks ≤ s.cmd.lbaReg)
    ∨ (o = .prepare ∧ (s.cmd.count.toNat < 16 ∨ 256 < s.cmd.count.toNat))

/-- Test 5: no tag is FREE, or records and owed completions together have reached 32. -/
def State.TestFull (s : State) : Prop :=
  (∀ r ∈ s.cmd.tags, r.st ≠ .free) ∨ 32 ≤ s.rep.recs.length + s.cmd.owedCount

/-- A submission of opcode o passes every test. -/
def State.Passes (s : State) (o : Opcode) : Prop :=
  ¬ s.NotAdmitted o ∧ ¬ s.TestBusy o ∧ ¬ s.TestBadParameter o ∧ ¬ s.TestFull

/-- The lowest-numbered FREE tag (R58). -/
def Cmd.LowestFree (c : Cmd) (t : Tag) : Prop :=
  t < c.tags.length ∧ (c.tag t).st = .free ∧ ∀ u, u < t → (c.tag u).st ≠ .free

/-! ## Other conditions -/

/-- The commands that are accesses of a register (R185). -/
def busAccess : Instr → Bool
  | .powerOn | .resetLineAssert | .resetLineRelease => false
  | .responseFrame _ | .opTimerExpiry | .identifyRetryExpiry | .faultLineAssert | .faultLineRelease => false
  | .filterWidthExpiry | .holdTimerExpiry | .commitRetryExpiry | .patrolIntervalExpiry => false
  | .opIssue | .commitStart | .quiesceEnd | .slotAllocation | .portBinding | .destageOffer => false
  | .writeThroughJobCreate | .commandStart | .repairActivation | .admissionWaitServe | .patrolResume => false
  | .flushComplete => false
  | _ => true

/-- The word a command writes to CONTROL, for the rows that are writes of CONTROL (R187). -/
def controlRow : Instr → Option Word
  | .gateReopen v => some v
  | .patrolEnable v => some v
  | .patrolDisable v => some v
  | .softReset v => some v
  | .discard v => some v
  | .registerWrite a v => if a = 0 then some v else none
  | _ => none

/-- The first element of a list for which a condition holds, said without a search. -/
def FirstWith {α : Type} (l : List α) (p : α → Bool) (x : α) : Prop :=
  ∃ pre post, l = pre ++ x :: post ∧ p x = true ∧ ∀ y ∈ pre, p y = false

end Sys2Proof.Machine
end

