-- ==== Sys2Proof/Certificates/Slice0/Obligations.lean ====
section
/-! DEFINITION. Certificates/Slice0/Obligations.lean: the statements for the provers. Where a command makes an event, a
statement gives the event's direct effect as an Ev in full (every field of the part that is not named there is as before)
and says that the command answers its close: the consequences of the same event, then its completions. -/

open Sys2Proof Sys2Proof.Machine

/-! ## The step and the queue of commands -/

/-- The command at the front is run on the part with the queue's rest; on an empty queue the part idles (log 4: the idling is
the model's choice). -/
def Obligations.StepRunsTheFrontCommand : Prop :=
  (∀ (c : Instr) (rest : List Instr) (s : State), s.pending = c :: rest → step s = exec c { s with pending := rest })
    ∧ ∀ s : State, s.pending = [] → step s = .next s

/-- exec answers a next state for every term of Instr, and leaves the queue as it is; what the next state is, the other
statements say. For a term that WellFormed refuses, this is the model's choice (log 21). -/
def Obligations.EveryCommandAnswersNext : Prop :=
  ∀ (c : Instr) (s : State), ∃ t, exec c s = .next t ∧ t.pending = s.pending

/-- What follows a direct effect: with no internal step due, the event ends; else the first due one is taken, and what follows
is what follows that, while the bound of 512 steps lasts. The first due one is the first of fourteen steps that answers: flush
completion, write-through job, destage offer, admission wait, repair activation, command start, read lookahead, slot allocation,
port binding, generation limit, commit start, quiesce end, op issue, patrol resumption; none is due when each answers none (logs
1, 2, 14, 15, 23, 29: the order, the bound and the pause of a patrol walk are the model's choice). Each answers exactly when it
is due (R38, R43, R50, R63, R86, R92, R106, R134, R137, R161, R170, R174, R182), and the command of its row takes it then, with
what follows in the same event (log 3). That the slot allocation is due exactly when a request waits and a slot can be provided,
for a LOAD request too whose LBA has a current slot by then, is the model's reading (R33; log 18). -/
def Obligations.CloseTakesDueStepsOneByOne : Prop :=
  (∀ e : Ev, e.close = (e.settle 512).finish)
    ∧ (∀ e : Ev, e.oneStep = none → e.close = e.finish)
    ∧ (∀ e f : Ev, e.oneStep = some f → e.close = (f.settle 511).finish)
    ∧ (∀ (k : Nat) (e f : Ev), e.oneStep = some f → e.settle (k + 1) = f.settle k)
    ∧ (∀ (k : Nat) (e : Ev), e.oneStep = none → e.settle k = e)
    ∧ (let steps : List (Ev → Option Ev) :=
        [Ev.flushComplete?, Ev.wtCreate?, Ev.destageOffer?, Ev.admissionServe?, Ev.repairActivate?, Ev.commandStart?,
          Ev.readLookup?, Ev.slotAlloc?, Ev.portBinding?, Ev.genLimit?, Ev.commitStart?, Ev.quiesceEnd?, Ev.opIssue?,
          Ev.patrolResume?]
      (∀ (pre post : List (Ev → Option Ev)) (f : Ev → Option Ev) (e g : Ev), steps = pre ++ f :: post →
        (∀ h ∈ pre, h e = none) → f e = some g → e.oneStep = some g)
      ∧ ∀ e : Ev, e.oneStep = none ↔ ∀ h ∈ steps, h e = none)
    ∧ (∀ e : Ev,
      let limit : Prop := e.store.dirty = true ∧ 0xFFFFFFFF ≤ e.store.newestGen
      let commit : Prop := e.store.dirty = true ∧ e.store.commit = none ∧ e.store.prep = none
        ∧ (e.store.run = .ready ∨ (e.store.run = .quiesce ∧ e.store.discarded = false)) ∧ e.store.retryTimer = false
        ∧ e.store.newestGen < 0xFFFFFFFF
      (e.flushComplete? = none ↔ ∀ f ∈ e.buf.flush, f.slots = [] →
          ¬ ((e.cmd.tag f.tag).op = some .flush ∧ (e.cmd.tag f.tag).st = .active))
      ∧ (e.wtCreate? = none ↔ ∀ i, i < e.buf.slots.length → e.wtReady i = false)
      ∧ (e.destageOffer? = none ↔ e.destageJob = true ∨ 8 ≤ e.rpr.queue.length ∨ ∀ i ∈ e.buf.destage, e.offerable i = false)
      ∧ (e.admissionServe? = none ↔ e.rpr.wait.length ≤ e.admissionWalk.rpr.wait.length)
      ∧ (e.repairActivate? = none ↔ e.rpr.queue = [] ∨ e.rpr.active ≠ none)
      ∧ (e.commandStart? = none ↔ ∀ t ∈ e.cmd.order, e.startable t = false)
      ∧ (e.readLookup? = none ↔ e.lookupDue e.ports.p0 = none ∧ e.lookupDue e.ports.p1 = none)
      ∧ (e.slotAlloc? = none ↔ e.buf.allocQ = [] ∨ ((∀ x ∈ e.buf.slots, x.st ≠ .free) ∧ e.buf.clean = []))
      ∧ (e.portBinding? = none ↔ ∀ t ∈ e.ports.wait, e.ports.takes (e.cmd.tag t).portSel = none)
      ∧ (e.genLimit? = none ↔ ¬ limit ∨ (e.store.atRisk = true ∧ (e.store.commit ≠ none ∨ e.rpr.queue = []
          ∨ ∀ a, e.rpr.active = some a → a.step ≠ .commitWait)))
      ∧ (e.commitStart? = none ↔ ¬ commit)
      ∧ (e.quiesceEnd? = none ↔ ¬ (e.store.run = .quiesce
          ∧ (∀ x ∈ e.buf.slots, x.st ≠ .dirty ∧ x.st ≠ .writing ∧ x.st ≠ .loading)
          ∧ e.rpr.queue = [] ∧ e.store.commit = none ∧ e.store.prep = none ∧ ¬ commit))
      ∧ (e.opIssue? = none ↔ e.media.link ≠ none ∨ e.gate.st ≠ .opened ∨ e.choice = none)
      ∧ (e.patrolResume? = none ↔ e.patrol.st ≠ .suspended ∨ e.paused = true ∨ e.store.run ≠ .ready ∨ e.higherWork = true))
    ∧ ∀ (c : Instr) (f : Ev → Option Ev) (s : State), s.bus.resetLow = false →
      (c, f) ∈ [(Instr.flushComplete, Ev.flushComplete?), (.writeThroughJobCreate, Ev.wtCreate?),
        (.destageOffer, Ev.destageOffer?), (.admissionWaitServe, Ev.admissionServe?),
        (.repairActivation, Ev.repairActivate?), (.commandStart, Ev.commandStart?), (.slotAllocation, Ev.slotAlloc?),
        (.portBinding, Ev.portBinding?), (.commitStart, Ev.commitStart?), (.quiesceEnd, Ev.quiesceEnd?),
        (.opIssue, Ev.opIssue?), (.patrolResume, Ev.patrolResume?)] →
      exec c s = .next ((f s.begin).getD s.begin).close

/-! ## Power-on and the reset line -/

/-- Power-on with RESET_N released leaves every block at its reset value, with the first IDENTIFY out (R132, R184), and every
register reads its value of Table 10-11 in State.reset. -/
def Obligations.PowerOnResetsThePart : Prop :=
  (∀ s : State, s.bus.resetLow = false →
    exec .powerOn s = .next { State.reset with
      gate := { State.reset.gate with
        line := s.gate.line
        filter := if s.gate.line then .measuring .us16 else .idle }
      pending := s.pending })
  ∧ ∀ a : BitVec 6, State.reset.regValue a =
    (if a = 26 then 0x0553 else if a = 27 then 0x040C else if a = 28 then 0x0830 else if a = 29 then 0x0A08 else 0)

/-- The reset line, when it becomes asserted, resets every block, and LOST_BLOCKS counts the DIRTY slots, the WRITING
slots that are not superseded and the PINNED slots (R54, R184). At its release an IDENTIFY is sent with the counter's
number, the counter rises, and the retry timer runs (R101, R103, R184). While it is asserted no access is taken, and a read
drives nothing, whatever its address (R185; log 8: the reads without a row of their own are no commands). -/
def Obligations.ResetLineResetsAndRestarts : Prop :=
  ∀ s : State,
    (∀ c : Instr, busAccess c = true → s.bus.resetLow = true → exec c s = .next s)
    ∧ (∀ a : BitVec 6, s.bus.resetLow = true → s.readAt a = s) ∧ State.inReset.bus.readout = none
    ∧ (s.bus.resetLow = false →
      exec .resetLineAssert s = .next { State.inReset with
        gate := { State.inReset.gate with
          line := s.gate.line
          filter := if s.gate.line then .measuring .us16 else .idle }
        buf := { State.inReset.buf with
          lost := s.buf.slots.countP (fun x =>
            x.st == .dirty || (x.st == .writing && x.superseded == false) || x.st == .pinned) }
        pending := s.pending })
    ∧ (s.bus.resetLow = true →
      exec .resetLineRelease s = .next { s with
        bus := { s.bus with resetLow := false }
        media := { s.media with
          link := some { seq := s.media.seq, op := .identify, job := none, orphan := none }
          tx := some { seq := s.media.seq, op := .identify, pba := 0, data := none }
          seq := s.media.seq + 1
          identTimer := true } })

/-! ## Submissions -/

/-- The acceptance tests in the order of Table 3-2: the first that fails gives the reason, and a refused submission changes
SUBMIT, and COMMAND, which reads back the last value written to it (R56, R57). -/
def Obligations.AcceptanceTestsAnswerInOrder : Prop :=
  ∀ (c : Instr) (v : Word) (s : State), commandWord c = some v → s.bus.resetLow = false →
    let refused (why : Reason) : Prop :=
      exec c s = .next { s with cmd := { s.cmd with command := v, submit := .refused why } }
    ((v.toNat = 0 ∨ 8 < v.toNat) → refused .badOpcode)
      ∧ ∀ o, opcodeOf v = some o →
        (s.NotAdmitted o → refused .notReady)
          ∧ (¬ s.NotAdmitted o → s.TestBusy o → refused .busy)
          ∧ (¬ s.NotAdmitted o → ¬ s.TestBusy o → s.TestBadParameter o → refused .badParameter)
          ∧ (¬ s.NotAdmitted o → ¬ s.TestBusy o → ¬ s.TestBadParameter o → s.TestFull → refused .queueFull)

/-- A submission that passes every test takes the lowest-numbered FREE tag, fills its record, joins the acceptance order
list, and SUBMIT shows it (R58, R59); a FLUSH forms its set (R49). -/
def Obligations.AcceptedCommandTakesItsTag : Prop :=
  ∀ (c : Instr) (v : Word) (o : Opcode) (t : Tag) (s : State),
    commandWord c = some v → opcodeOf v = some o → s.bus.resetLow = false → s.Passes o → s.cmd.LowestFree t →
    let e : Ev := { s.begin with
      cmd := { s.cmd with
        command := v
        submit := .accepted t
        tags := s.cmd.tags.set t
          { st := .queued, op := some o
            lba := if o = .flush ∨ o = .prepare then 0 else s.cmd.lbaH.toNat * 65536 + s.cmd.lbaL.toNat
            count := if o = .read ∨ o = .write ∨ o = .verify ∨ o = .prepare then s.cmd.count.toNat else 0
            portSel := if o = .read ∨ o = .write then (portSelOf s.cmd.flags).getD .p0 else .p0
            through := if o = .write then fieldOf s.cmd.flags 2 1 == 1 else false
            done := 0, failure := none, looked := 0, claims := [] }
        order := s.cmd.order ++ [t] }
      buf := { s.buf with
        flush := if o = .flush then
            s.buf.flush ++ [{ tag := t, slots := s.buf.slotsWith (fun x => x.st == .dirty || x.st == .writing)
                              pinned := decide (0 < s.buf.pinnedCount) }]
          else s.buf.flush } }
    exec c s = .next e.close ∧ e.close.cmd.submit = .accepted t

/-! ## Abort -/

/-- What a write of ABORT is refused for, and that an ABORTING tag is left alone (R73). An abort of a QUEUED command completes
it ABORTED: it leaves the order list, the wait for a port, and a FLUSH its set (R74). -/
def Obligations.AbortRefusedIgnoredOrOfAQueuedCommand : Prop :=
  ∀ (v : Word) (s : State), s.bus.resetLow = false →
    let t := v.toNat
    let r := s.cmd.tag t
    ((7 < t ∨ r.st = .free ∨ r.st = .reported ∨ r.op = some .prepare ∨ r.op = some .releasePinned
        ∨ r.op = some .clearSuspect) →
      exec (.abort v) s = .next { s with cmd := { s.cmd with abortRefused := true } })
    ∧ ((t ≤ 7 ∧ r.st = .aborting ∧
        (r.op = some .read ∨ r.op = some .write ∨ r.op = some .verify ∨ r.op = some .flush ∨ r.op = some .relocate)) →
      exec (.abort v) s = .next s)
    ∧ ((t ≤ 7 ∧ r.st = .queued ∧
        (r.op = some .read ∨ r.op = some .write ∨ r.op = some .verify ∨ r.op = some .flush ∨ r.op = some .relocate)) →
      exec (.abort v) s = .next (Ev.close { s.begin with
        cmd := { s.cmd with
          tags := s.cmd.tags.set t { r with st := .reported, claims := [] }
          order := s.cmd.order.filter (· != t) }
        buf := { s.buf with flush := s.buf.flush.filter (·.tag != t) }
        ports := { s.ports with wait := s.ports.wait.filter (· != t) }
        posted := [{ key := 2 * s.cmd.order.idxOf t, report := .completion t .aborted r.done r.lba }] }))

/-- An abort of an ACTIVE READ, VERIFY, FLUSH or RELOCATE completes it ABORTED, with blocks done as it stands (R75, R77); an
ACTIVE WRITE without an owed write-through block completes ABORTED, and with one it is ABORTING (R76). What the command held
is released: of a READ and a WRITE the port, the request in the allocator queue and the FILLING slot; of a READ its claims,
and its loads become loads of the Staging Buffer; of a VERIFY its waiting VERIFY jobs, and the one on the link loses its
owner; of a FLUSH its set; of a RELOCATE its place in the wait or its tag in the entry (R42, R50, R51, R94, R116, R138). -/
def Obligations.AbortEndsAnActiveCommand : Prop :=
  ∀ (v : Word) (o : Opcode) (s : State), s.bus.resetLow = false → v.toNat ≤ 7 → v.toNat < s.cmd.tags.length →
    (s.cmd.tag v.toNat).st = .active → (s.cmd.tag v.toNat).op = some o →
    (o = .read ∨ o = .write ∨ o = .verify ∨ o = .flush ∨ o = .relocate) →
    let t := v.toNat
    let r := s.cmd.tag t
    let freed (p : Port) : Port := if p.bound.any (·.tag == t) then { p with bound := none } else p
    let filling (x : Slot) : Bool := x.st == .filling && x.owner == some (.tag t)
    ∃ e : Ev, exec (.abort v) s = .next e.close
      ∧ e.gate = s.gate ∧ e.store = s.store ∧ e.trans = s.trans ∧ e.bus = s.bus ∧ e.rep = s.rep
      ∧ e.patrol = s.patrol ∧ (∀ u, u ≠ t → e.cmd.tag u = s.cmd.tag u)
      ∧ (if o = .write ∧ s.owedBlocks t ≠ 0 then
          (e.cmd.tag t).st = .aborting ∧ e.posted = [] ∧ e.cmd.order = s.cmd.order
        else
          (e.cmd.tag t).st = .reported ∧ e.posted.map (·.report) = [.completion t .aborted r.done r.lba]
            ∧ e.cmd.order = s.cmd.order.filter (· != t))
      ∧ ((o = .read ∨ o = .write) →
          e.ports = { s.ports with p0 := freed s.ports.p0, p1 := freed s.ports.p1 }
          ∧ e.buf.allocQ = s.buf.allocQ.filter (·.tag != t)
          ∧ e.rpr = s.rpr
          ∧ ∀ i, filling (s.buf.slot i) = true → e.buf.slot i = Slot.empty)
      ∧ (o = .read →
          (∀ i, i < s.buf.slots.length → filling (s.buf.slot i) = false → e.buf.slot i = { s.buf.slot i with
            claims := (s.buf.slot i).claims - r.claims.countP (·.2 == i)
            owner := if (s.buf.slot i).st = .loading ∧ (s.buf.slot i).owner = some (.tag t) then none
              else (s.buf.slot i).owner })
          ∧ e.media = { s.media with
            hostQ := s.media.hostQ.map (fun j =>
              if j.owner = .tag t ∧ j.kind = .read then { j with owner := .staging } else j)
            link := s.media.link.map (fun x => { x with job := x.job.map (fun j =>
              if j.owner = .tag t ∧ j.kind = .read then { j with owner := .staging } else j) }) })
      ∧ (o = .write → e.media = s.media ∧ ∀ i, filling (s.buf.slot i) = false → e.buf.slot i = s.buf.slot i)
      ∧ (o = .verify → e.buf = s.buf ∧ e.ports = s.ports ∧ e.rpr = s.rpr ∧ e.media = { s.media with
          hostQ := s.media.hostQ.filter (fun j => !(j.owner == .tag t && j.kind == .verify))
          link := s.media.link.map (fun x =>
            if x.orphan.isNone && x.job.any (fun j => j.owner == .tag t && j.kind == .verify) then
              { x with orphan := some .applyNothing }
            else x) })
      ∧ (o = .flush → e.buf = { s.buf with flush := s.buf.flush.filter (·.tag != t) } ∧ e.ports = s.ports
          ∧ e.rpr = s.rpr ∧ e.media = s.media)
      ∧ (o = .relocate → e.buf = s.buf ∧ e.ports = s.ports ∧ e.media = s.media ∧ e.rpr = { s.rpr with
          queue := s.rpr.queue.map (fun x => if x.relTag = some t then { x with relTag := none } else x)
          wait := s.rpr.wait.filter (· != t) })

/-! ## Reports -/

/-- The number of a completion status (Table 10-6). -/
def StatusNumber : Status → Nat
  | .good => 0
  | .aborted => 1
  | .readFailed => 2
  | .writeFailed => 3
  | .verifyFailed => 4
  | .mediaUnavailable => 5
  | .pinnedPresent => 6
  | .notPinned => 7
  | .notSuspect => 8
  | .noSpare => 9
  | .rereadFailed => 10
  | .tableWriteFailed => 11

/-- The number of an origin, and of a cause of a suspect entry (Tables 10-7 and 10-10). -/
def OriginNumber : Origin → Nat
  | .writeFault => 0
  | .correctedRead => 1
  | .software => 2

def CauseNumber : Cause → Nat
  | .host => 0
  | .patrol => 1
  | .writeFailed => 2
  | .reread => 3

/-- What a notice shows (Tables 3-5, 10-5 and 10-7): its code, copy, verdict, aux word and LBA. -/
def NoticeShows : Notice → Nat × Nat × Nat × Nat × Nat
  | .trip c => (1, 0, 0, match c with | .faultLine => 0 | .unitFault => 1 | .timeout => 2, 0)
  | .gateLatched k => (2, 0, 0, k, 0)
  | .gateReopened w => (3, 0, 0, match w with | .auto => 0 | .software => 1, 0)
  | .suspectAdded n c => (4, 0, 0, CauseNumber c, n)
  | .suspectCleared n h => (5, 0, 0, match h with | .readGood => 0 | .writeVerified => 1, n)
  | .suspectFull n => (6, 0, 0, 0, n)
  | .remapped n r o => (7, 0, 0, r % 256 + 256 * OriginNumber o, n)
  | .relocateFailed n w => (8, 0, 0, match w with | .noSpare => 0 | .rereadFailed => 1, n)
  | .relocateDropped n => (9, 0, 0, 0, n)
  | .pinned n => (10, 0, 0, 0, n)
  | .spareLow k => (11, 0, 0, k, 0)
  | .tableCommitted g c => (12, match c with | .a => 0 | .b => 1, 0, g % 65536, 0)
  | .tableCommitFailed c => (13, match c with | .a => 0 | .b => 1, 0, 0, 0)
  | .patrolPassDone n => (14, 0, 0, 0, n)
  | .loadResult v c g => (15, match c with | .a => 0 | .b => 1,
      match v with | .both => 0 | .oneCopy => 1 | .none => 2 | .sizeMismatch => 3, g % 65536, 0)

/-- A pop removes the head record; a completion's tag becomes FREE; a pop of an empty queue changes nothing; REPORT_CTRL
reads the count and REPORT_0 to REPORT_3 the head (R81), field by field in the layout of Tables 10-5 to 10-7: the kind, the tag
and status code and blocks done of a completion, the code, copy, verdict and aux word of a notice, and the LBA. -/
def Obligations.PopRemovesTheHeadRecord : Prop :=
  ∀ (v : Word) (s : State), s.bus.resetLow = false →
    (s.rep.recs = [] → exec (.reportPop v) s = .next s)
    ∧ (∀ n l, s.rep.recs = .notice n :: l → exec (.reportPop v) s = .next { s with rep := { s.rep with recs := l } })
    ∧ (∀ t st d n l, s.rep.recs = .completion t st d n :: l →
        exec (.reportPop v) s = .next { s with
          rep := { s.rep with recs := l }
          cmd := { s.cmd with tags := s.cmd.tags.set t TagRec.empty } })
    ∧ s.regValue 13 = BitVec.ofNat 16 s.rep.recs.length
    ∧ (s.rep.recs = [] → s.regValue 9 = 0 ∧ s.regValue 10 = 0 ∧ s.regValue 11 = 0 ∧ s.regValue 12 = 0)
    ∧ (∀ x l, s.rep.recs = x :: l →
        s.regValue 9 = x.word0 ∧ s.regValue 10 = x.word1 ∧ s.regValue 11 = x.word2 ∧ s.regValue 12 = x.word3)
    ∧ (∀ t st d n l, s.rep.recs = .completion t st d n :: l →
        s.regValue 9 = BitVec.ofNat 16 (1 + 4 * (t % 8) + 256 * StatusNumber st)
        ∧ s.regValue 10 = BitVec.ofNat 16 (d % 128)
        ∧ s.regValue 11 = BitVec.ofNat 16 n ∧ s.regValue 12 = BitVec.ofNat 16 (n / 65536 % 4096))
    ∧ (∀ n l code copy verdict aux m, s.rep.recs = .notice n :: l → NoticeShows n = (code, copy, verdict, aux, m) →
        s.regValue 9 = BitVec.ofNat 16 (2 + 256 * code + 4096 * copy + 8192 * verdict)
        ∧ s.regValue 10 = BitVec.ofNat 16 aux
        ∧ s.regValue 11 = BitVec.ofNat 16 m ∧ s.regValue 12 = BitVec.ofNat 16 (m / 65536 % 4096))

/-- A notice joins the tail while records and owed completions are below 32, and is dropped with NOTICE_LOST set
otherwise (R80). A command that completes becomes REPORTED, leaves the order list, and its completion takes its place among
those of the event by its key: its place in the order at the event's start (R78), or a key that puts it behind another where a
rule asks for it (R147, R148; log 10). At the end of the event the completions join the queue behind its notices. -/
def Obligations.RecordsTakeTheirPlaces : Prop :=
  ∀ (e : Ev) (n : Notice) (key : Nat) (t : Tag) (st : Status) (m : Lba),
    (e.rep.recs.length + e.posted.length + e.cmd.owedCount < 32 →
      e.notice n = { e with rep := { e.rep with recs := e.rep.recs ++ [.notice n] } })
    ∧ (32 ≤ e.rep.recs.length + e.posted.length + e.cmd.owedCount →
      e.notice n = { e with rep := { e.rep with noticeLost := true } })
    ∧ e.complete t st m = e.completeAfter 0 t st m
    ∧ ((e.cmd.tag t).owed = false → e.completeAfter key t st m = e)
    ∧ ((e.cmd.tag t).owed = true →
      let k := max key (2 * e.order0.idxOf t)
      ∃ pre post, e.posted = pre ++ post ∧ (∀ q ∈ pre, q.key ≤ k)
        ∧ (e.posted.Pairwise (fun x y => x.key ≤ y.key) → ∀ q ∈ post, k < q.key)
        ∧ e.completeAfter key t st m = { e with
          cmd := { e.cmd with
            tags := e.cmd.tags.set t { e.cmd.tag t with st := .reported, claims := [] }
            order := e.cmd.order.filter (· != t) }
          posted := pre ++ { key := k, report := .completion t st (e.cmd.tag t).done m } :: post })
    ∧ e.finish = { e.toState with rep := { e.rep with recs := e.rep.recs ++ e.posted.map (·.report) } }

/-! ## Data ports -/

/-- A read of DATA that moves a word before the last of its block returns it, and a write of DATA before the last word of a
block stores the word in the FILLING slot; the word index rises (R90, R91). A READ moves words from the slot that it claims for
the block at the port, while that slot is CLEAN, DIRTY, WRITING or PINNED (R88); a WRITE moves them into its FILLING slot, while
it is owed fewer than two write-through blocks (R34, R89): its WRITING slots, and its blocks that a repair holds (R66; log 13 for
a WRITE whose attachment a latch has removed). -/
def Obligations.DataAccessMovesAWord : Prop :=
  (∀ (p : PortId) (v : Word) (b : Binding) (i : SlotIx) (s : State), s.bus.resetLow = false →
    (s.ports.get p).bound = some b → b.word + 1 < 256 →
    (b.dir = .read → s.deliverable b = some i →
      exec (.dataRead p) s = .next { s with
        ports := s.ports.set p { s.ports.get p with bound := some { b with word := b.word + 1 } }
        bus := { s.bus with readout := some ((s.buf.slot i).data.getD b.word 0) } })
    ∧ (b.dir = .write → s.fillable b = some i →
      exec (.dataWrite p v) s = .next { s with
        buf := { s.buf with slots := s.buf.slots.set i { s.buf.slot i with data := (s.buf.slot i).data ++ [v] } }
        ports := s.ports.set p { s.ports.get p with bound := some { b with word := b.word + 1 } } }))
  ∧ ∀ (b : Binding) (s : State),
    let claims := (s.cmd.tag b.tag).claims
    let filling (x : Slot) : Prop := x.st = .filling ∧ x.owner = some (.tag b.tag)
    let owed : Nat := s.buf.slots.countP (fun x => x.st == .writing && x.owner == some (.tag b.tag))
      + s.rpr.queue.countP (fun x => x.wtTag == some b.tag || (x.wtTag.isNone && x.wtFormer == some b.tag))
    s.owedBlocks b.tag = owed
    ∧ (∀ i, FirstWith claims (fun c => c.1 == b.block) (b.block, i) →
        let x := s.buf.slot i
        ((x.st = .clean ∨ x.st = .dirty ∨ x.st = .writing ∨ x.st = .pinned) → s.deliverable b = some i)
        ∧ ((x.st = .free ∨ x.st = .filling ∨ x.st = .loading) → s.deliverable b = none))
    ∧ ((∀ c ∈ claims, c.1 ≠ b.block) → s.deliverable b = none)
    ∧ (∀ i, i < s.buf.slots.length → filling (s.buf.slot i) → (∀ k, k < i → ¬ filling (s.buf.slot k)) → owed < 2 →
        s.fillable b = some i)
    ∧ (((∀ x ∈ s.buf.slots, ¬ filling x) ∨ 2 ≤ owed) → s.fillable b = none)

/-- The read of the last word of a block: the claim drops, blocks done rises, and the port goes on to the next block, or
unbinds and the command completes GOOD (R90). -/
def Obligations.DataReadEndsABlock : Prop :=
  ∀ (p : PortId) (b : Binding) (i : SlotIx) (s : State), s.bus.resetLow = false →
    (s.ports.get p).bound = some b → b.dir = .read → s.deliverable b = some i → b.word = 255 →
    b.tag < s.cmd.tags.length → (s.cmd.tag b.tag).st = .active →
    let w := (s.buf.slot i).data.getD 255 0
    ∃ e : Ev, exec (.dataRead p) s = .next { e.close with bus := { e.close.bus with readout := some w } }
      ∧ e.buf = s.buf.setSlot i { s.buf.slot i with claims := (s.buf.slot i).claims - 1 }
      ∧ e.bus = s.bus ∧ e.rep = s.rep ∧ e.trans = s.trans ∧ e.rpr = s.rpr ∧ e.media = s.media ∧ e.gate = s.gate
      ∧ e.patrol = s.patrol ∧ e.store = s.store ∧ (∀ u, u ≠ b.tag → e.cmd.tag u = s.cmd.tag u)
      ∧ (e.cmd.tag b.tag).done = (s.cmd.tag b.tag).done + 1
      ∧ (b.block + 1 < (s.cmd.tag b.tag).count →
          e.posted = [] ∧ e.ports.get p = { s.ports.get p with bound := some { b with block := b.block + 1, word := 0 } })
      ∧ ((s.cmd.tag b.tag).count ≤ b.block + 1 →
          (e.ports.get p).bound = none ∧ (e.cmd.tag b.tag).st = .reported
            ∧ e.posted.map (·.report)
              = [.completion b.tag .good ((s.cmd.tag b.tag).done + 1) (s.cmd.tag b.tag).lba])

/-- The 256th word makes the block current: DIRTY at the tail of the destage list and counted as done when it is staged,
WRITING, owned by the command and not yet counted when it goes write-through; the test reads STAGE_EN, THROUGH and the PINNED
count before the event (R35, R36, R38, R91). The slot that was current for the LBA becomes FREE, or, when it is WRITING,
superseded; a load that it waited for is withdrawn (R37, R42). The port goes on to the next block with its FILL request, or
unbinds after the last; the WRITE completes GOOD when this block was the last one to count (R66, R94). -/
def Obligations.LastWordFillsTheBlock : Prop :=
  ∀ (p : PortId) (v : Word) (b : Binding) (i : SlotIx) (n : Lba) (s : State), s.bus.resetLow = false →
    (s.ports.get p).bound = some b → b.dir = .write → s.fillable b = some i → b.word = 255 →
    (s.buf.slot i).lba = some n → b.tag < s.cmd.tags.length → (s.cmd.tag b.tag).st = .active →
    (s.cmd.tag b.tag).failure = none → (s.cmd.tag b.tag).done < (s.cmd.tag b.tag).count →
    let t := b.tag
    let r := s.cmd.tag t
    let through : Prop := s.bus.stageEn = false ∨ r.through = true ∨ 8 ≤ s.buf.pinnedCount
    let older : Option SlotIx := s.buf.lookup n
    let emptied (k : SlotIx) : Prop := older = some k ∧ (s.buf.slot k).st ≠ .writing
    ∃ e : Ev, exec (.dataWrite p v) s = .next e.close
      ∧ e.bus = s.bus ∧ e.rep = s.rep ∧ e.trans = s.trans ∧ e.rpr = s.rpr ∧ e.gate = s.gate
      ∧ e.patrol = s.patrol ∧ e.store = s.store ∧ (∀ u, u ≠ t → e.cmd.tag u = s.cmd.tag u)
      ∧ (e.buf.slot i).data = (s.buf.slot i).data ++ [v] ∧ (e.buf.slot i).lba = some n
      ∧ (through → (e.buf.slot i).st = .writing ∧ (e.buf.slot i).owner = some (.tag t) ∧ (e.cmd.tag t).done = r.done
          ∧ e.buf.destage = s.buf.destage.filter (fun k => !decide (emptied k ∧ (s.buf.slot k).st = .dirty)))
      ∧ (¬ through → (e.buf.slot i).st = .dirty ∧ (e.buf.slot i).owner = none ∧ (e.cmd.tag t).done = r.done + 1
          ∧ e.buf.destage = s.buf.destage.filter (fun k => !decide (emptied k ∧ (s.buf.slot k).st = .dirty)) ++ [i])
      ∧ (∀ k, k ≠ i → e.buf.slot k =
          (if older = some k then
            if (s.buf.slot k).st = .writing then { s.buf.slot k with superseded := true } else Slot.empty
          else s.buf.slot k))
      ∧ ((∀ k, older = some k → (s.buf.slot k).st ≠ .loading) → e.media = s.media)
      ∧ (∀ k, older = some k → (s.buf.slot k).st = .loading →
          e.media = { s.media with
            hostQ := s.media.hostQ.filter (fun j => !(j.kind == .read && j.place == some (.slot k)))
            link := s.media.link.map (fun o =>
              if o.job.any (fun j => j.cls == .host && j.kind == .read && j.place == some (.slot k)) then
                { o with orphan := some .applyNothing }
              else o) })
      ∧ (b.block + 1 < r.count →
          e.posted = [] ∧ (e.cmd.tag t).st = .active
          ∧ e.ports = s.ports.set p { s.ports.get p with bound := some { b with block := b.block + 1, word := 0 } }
          ∧ e.buf.allocQ = s.buf.allocQ ++ [{ tag := t, kind := .fill, lba := r.lba + (b.block + 1), block := b.block + 1 }])
      ∧ (r.count ≤ b.block + 1 →
          (e.ports.get p).bound = none ∧ e.buf.allocQ = s.buf.allocQ
          ∧ (if ¬ through ∧ r.done + 1 = r.count then
              (e.cmd.tag t).st = .reported ∧ e.posted.map (·.report) = [.completion t .good r.count r.lba]
                ∧ e.cmd.order = s.cmd.order.filter (· != t)
            else (e.cmd.tag t).st = .active ∧ e.posted = [] ∧ e.cmd.order = s.cmd.order))

/-- An access to DATA that cannot move a word sets EMPTY_ACCESS and changes nothing else; a read of that kind returns
0000h (R93). -/
def Obligations.EmptyAccessMovesNothing : Prop :=
  ∀ (p : PortId) (v : Word) (s : State), s.bus.resetLow = false →
    (((s.ports.get p).bound = none
        ∨ ∃ b, (s.ports.get p).bound = some b ∧ (b.dir = .write ∨ (b.dir = .read ∧ s.deliverable b = none))) →
      exec (.dataRead p) s = .next { s with
        ports := s.ports.set p { s.ports.get p with empty := true }
        bus := { s.bus with readout := some 0 } })
    ∧ (((s.ports.get p).bound = none
        ∨ ∃ b, (s.ports.get p).bound = some b ∧ (b.dir = .read ∨ (b.dir = .write ∧ s.fillable b = none))) →
      exec (.dataWrite p v) s = .next { s with ports := s.ports.set p { s.ports.get p with empty := true } })

/-! ## Registers -/

/-- The sticky fields of STATUS and EMPTY_ACCESS of STAT are cleared by a 1 and kept by a 0; a write of LOST_BLOCKS sets it
to 0, whatever value is written; nothing else changes (R55, R188, R191). Writes of the parameter registers store them,
CMD_FLAGS with its bits 2:0 only; a write of a read-only register, or of an offset from 54h, changes nothing (R185, R189). The
registers of the patrol window are taken while patrol is OFF, the high ones with their low 12 bits, and ignored otherwise
(R155). CONTROL, STATUS, SUBMIT, the STAT registers and BUF_COUNTS read their fields in the layouts of Tables 10-2, 10-3, 10-4
and 10-8, and the registers of one value read that value (R84, R96, R155, R156, R186, R187, R188, R189, R191); an offset from 54h
reads 0000h (R185). -/
def Obligations.RegisterWritesStoreOrClear : Prop :=
  (∀ (p : PortId) (v : Word) (s : State), s.bus.resetLow = false →
    exec (.statusWrite v) s = .next { s with
      rep := { s.rep with noticeLost := if v.getLsbD 10 then false else s.rep.noticeLost }
      cmd := { s.cmd with abortRefused := if v.getLsbD 11 then false else s.cmd.abortRefused }
      gate := { s.gate with refused := if v.getLsbD 12 then false else s.gate.refused }
      patrol := { s.patrol with badWindow := if v.getLsbD 13 then false else s.patrol.badWindow } }
    ∧ exec (.statWrite p v) s = .next { s with
      ports := s.ports.set p { s.ports.get p with
        empty := if v.getLsbD 6 then false else (s.ports.get p).empty } }
    ∧ exec (.lostBlocksWrite v) s = .next { s with buf := { s.buf with lost := 0 } })
  ∧ (∀ (v : Word) (s : State), s.bus.resetLow = false →
    exec (.registerWrite 2 v) s = .next { s with cmd := { s.cmd with lbaL := v } }
    ∧ exec (.registerWrite 3 v) s = .next { s with cmd := { s.cmd with lbaH := v } }
    ∧ exec (.registerWrite 4 v) s = .next { s with cmd := { s.cmd with count := v } }
    ∧ exec (.registerWrite 5 v) s = .next { s with cmd := { s.cmd with flags := v &&& 7 } }
    ∧ (∀ a : BitVec 6, (a = 7 ∨ (9 ≤ a.toNat ∧ a.toNat ≤ 12) ∨ (18 ≤ a.toNat ∧ a.toNat ≤ 24) ∨ a = 34 ∨ a = 35
        ∨ 38 ≤ a.toNat) → exec (.registerWrite a v) s = .next s)
    ∧ (s.patrol.st = .off →
      exec (.patrolWindowWrite .startL v) s = .next { s with patrol := { s.patrol with startL := v } }
      ∧ exec (.patrolWindowWrite .startH v) s
          = .next { s with patrol := { s.patrol with startH := BitVec.ofNat 12 v.toNat } }
      ∧ exec (.patrolWindowWrite .endL v) s = .next { s with patrol := { s.patrol with endL := v } }
      ∧ exec (.patrolWindowWrite .endH v) s
          = .next { s with patrol := { s.patrol with endH := BitVec.ofNat 12 v.toNat } })
    ∧ (s.patrol.st ≠ .off → ∀ r, exec (.patrolWindowWrite r v) s = .next s))
  ∧ ∀ s : State,
    let bit (b : Bool) : Nat := if b then 1 else 0
    let pinned : Nat := s.buf.slots.countP (·.st == .pinned)
    let run : Nat := match s.store.run with
      | .starting => 0
      | .unitRejected => 1
      | .loading => 2
      | .unprepared => 3
      | .ready => 4
      | .quiesce => 5
    let gate : Nat := match s.gate.st with
      | .opened => 0
      | .hold => 1
      | .waitClear => 2
      | .latched => 3
    s.regValue 0 = BitVec.ofNat 16 (bit s.bus.stageEn
        + 2 * bit (s.patrol.st != .off && !(s.patrol.finishing && !s.patrol.restart))
        + 4 * bit s.bus.patrolCont + 8 * bit s.bus.reportIe + 16 * bit s.bus.portIe + 32 * bit (s.store.run == .quiesce)
        + 64 * bit s.bus.discard)
    ∧ s.regValue 1 = BitVec.ofNat 16 (run + 8 * gate + 32 * bit s.store.dirty + 64 * bit s.store.commit.isSome
        + 128 * bit s.store.atRisk + 256 * bit (decide (8 ≤ pinned))
        + 512 * bit (s.patrol.st == .pending || s.patrol.st == .running) + 1024 * bit s.rep.noticeLost
        + 2048 * bit s.cmd.abortRefused + 4096 * bit s.gate.refused + 8192 * bit s.patrol.badWindow)
    ∧ (s.cmd.submit = .none → s.regValue 7 = 0)
    ∧ (∀ t, s.cmd.submit = .accepted t → s.regValue 7 = BitVec.ofNat 16 (1 + 4 * (t % 8)))
    ∧ (∀ r, s.cmd.submit = .refused r → s.regValue 7 = BitVec.ofNat 16 (2 + 256 * (match r with
        | .badOpcode => 1
        | .notReady => 2
        | .busy => 3
        | .badParameter => 4
        | .queueFull => 5)))
    ∧ s.regValue 22 = BitVec.ofNat 16
        (s.buf.slots.countP (fun x => x.st == .dirty || x.st == .writing) % 128 + 256 * (pinned % 128))
    ∧ (∀ p : PortId,
      let a : BitVec 6 := match p with | .p0 => 15 | .p1 => 17
      ((s.ports.get p).bound = none → s.regValue a = BitVec.ofNat 16 (64 * bit (s.ports.get p).empty))
      ∧ ∀ b, (s.ports.get p).bound = some b →
        let ready : Prop := ∃ i, (b.dir = .read ∧ s.deliverable b = some i) ∨ (b.dir = .write ∧ s.fillable b = some i)
        let rest : Nat := 4 * bit (b.dir == .write) + 8 * (b.tag % 8) + 64 * bit (s.ports.get p).empty + 256 * (b.word % 256)
        (¬ ready → s.regValue a = BitVec.ofNat 16 (1 + rest))
        ∧ (ready → s.regValue a = BitVec.ofNat 16 (2 + rest + 128 * bit (b.word == 0))))
    ∧ s.regValue 2 = s.cmd.lbaL ∧ s.regValue 3 = s.cmd.lbaH ∧ s.regValue 4 = s.cmd.count
    ∧ s.regValue 5 = s.cmd.flags &&& 7 ∧ s.regValue 6 = s.cmd.command ∧ s.regValue 8 = 0
    ∧ s.regValue 18 = BitVec.ofNat 16 s.trans.blocks ∧ s.regValue 20 = BitVec.ofNat 16 s.trans.spareCount
    ∧ s.regValue 21 = BitVec.ofNat 16 (s.trans.spares.countP (· == .free))
    ∧ s.regValue 23 = BitVec.ofNat 16 s.store.newestGen ∧ s.regValue 25 = BitVec.ofNat 16 s.buf.lost
    ∧ s.regValue 30 = s.patrol.startL ∧ s.regValue 31 = BitVec.ofNat 16 s.patrol.startH.toNat
    ∧ s.regValue 32 = s.patrol.endL ∧ s.regValue 33 = BitVec.ofNat 16 s.patrol.endH.toNat
    ∧ s.regValue 34 = BitVec.ofNat 16 s.patrol.pos
    ∧ s.regValue 36 = BitVec.ofNat 16 s.trans.tableSel.toNat ∧ s.regValue 37 = BitVec.ofNat 16 s.trans.tableIdx.toNat
    ∧ ∀ a : BitVec 6, 42 ≤ a.toNat → s.regValue a = 0

/-- MEDIA_CFG, STAGE_CFG and PATROL_CFG set all their fields in one write, out-of-range codes taken as the nearest end, and
read back as taken (R192). A write of GATE_CFG sets its four fields; a change of MODE from AUTO to LATCHED latches a gate in
HOLD or WAIT_CLEAR in the same event, the trip counter kept; in every other case the gate's state stays (R128). Outside
QUIESCE the gate stands so at the end of the event. GATE_CFG reads back the fields as taken (R192). -/
def Obligations.ConfigurationWritesAct : Prop :=
  (∀ (v : Word) (s : State), s.bus.resetLow = false →
      let f (lo n : Nat) : Nat := v.toNat / 2 ^ lo % 2 ^ n
      let near (lo hi x : Nat) : Nat := if x < lo then lo else if hi < x then hi else x
      let m := { s with media := { s.media with
        readRetries := f 0 3, relocLevel := near 1 8 (f 4 4), opTimeout := near 1 25 (f 8 5) } }
      let g := { s with
        buf := { s.buf with highWater := near 8 56 (f 0 6) }, trans := { s.trans with spareLow := near 0 64 (f 8 7) } }
      let q := { s with patrol := { s.patrol with burst := near 1 16 (f 0 5), interval := f 8 8 } }
      exec (.mediaCfgWrite v) s = .next m
        ∧ m.regValue 26 = BitVec.ofNat 16 (m.media.readRetries + 16 * m.media.relocLevel + 256 * m.media.opTimeout)
        ∧ exec (.stageCfgWrite v) s = .next g
        ∧ g.regValue 28 = BitVec.ofNat 16 (g.buf.highWater + 256 * g.trans.spareLow)
        ∧ exec (.patrolCfgWrite v) s = .next q
        ∧ q.regValue 29 = BitVec.ofNat 16 (q.patrol.burst + 256 * q.patrol.interval))
  ∧ ∀ (v : Word) (s : State), s.bus.resetLow = false →
      let f (lo n : Nat) : Nat := v.toNat / 2 ^ lo % 2 ^ n
      let g : Gate := { s.gate with
        mode := if f 0 1 = 1 then .latched else .auto
        filterCfg := if f 1 2 = 0 then .off else if f 1 2 = 1 then .us4 else if f 1 2 = 2 then .us16 else .us64
        holdCfg := if f 3 2 = 0 then .ms1 else if f 3 2 = 1 then .ms4 else if f 3 2 = 2 then .ms16 else .ms64
        tripLimit := if f 8 4 = 0 then 1 else f 8 4 }
      let latches : Prop := s.gate.mode = .auto ∧ f 0 1 = 1 ∧ (s.gate.st = .hold ∨ s.gate.st = .waitClear)
      (¬ latches → exec (.gateCfgWrite v) s = .next (Ev.close { s.begin with gate := g })
          ∧ (s.store.run ≠ .quiesce → (Ev.close { s.begin with gate := g }).gate = g))
        ∧ (latches → exec (.gateCfgWrite v) s = .next (Ev.latch { s.begin with gate := g }).close
          ∧ (s.store.run ≠ .quiesce →
            (Ev.latch { s.begin with gate := g }).close.gate = { g with st := .latched, holdTimer := none }))
        ∧ ∀ t : State, t.gate.mode = g.mode → t.gate.filterCfg = g.filterCfg → t.gate.holdCfg = g.holdCfg →
          t.gate.tripLimit = g.tripLimit →
          t.regValue 27 = BitVec.ofNat 16 (f 0 1 + 2 * f 1 2 + 8 * f 3 2 + 256 * g.tripLimit)

/-- TABLE_SEL stores its bits 1:0 and TABLE_IDX its bits 7:0; a read of TABLE_D0 takes the selected entry into the view
latch and returns its first word; TABLE_D1 to TABLE_D3 return the latch (R23, R193). A read of the low word of L, the newest
generation or POS takes the whole value into its latch; the high register returns the latch's upper bits (R186). A read at
any address drives the value that the register has, and one without a side effect changes nothing else; the reads with a row
of their own are reads at their addresses (R185; log 8). The views show the remap table, the suspect list, the spares and the
repair queue, entry by entry in the layout of Table 10-10, and four words of 0 for an index that names no entry (R23, R24,
R193). -/
def Obligations.LatchesKeepWhatWasRead : Prop :=
  (∀ (v : Word) (s : State), s.bus.resetLow = false →
    exec (.tableViewSelect .sel v) s = .next { s with trans := { s.trans with tableSel := BitVec.ofNat 2 v.toNat } }
    ∧ exec (.tableViewSelect .idx v) s = .next { s with trans := { s.trans with tableIdx := BitVec.ofNat 8 v.toNat } }
    ∧ (let d := s.viewEntry s.trans.tableSel.toNat s.trans.tableIdx.toNat
       let t : State := { s with trans := { s.trans with view := d }, bus := { s.bus with readout := some d.d0 } }
       exec .tableD0Read s = .next t
         ∧ t.regValue 39 = d.d1 ∧ t.regValue 40 = d.d2 ∧ t.regValue 41 = d.d3)
    ∧ exec (.wideLowRead .cap) s = .next { s with bus := { s.bus with
      capLatch := s.trans.blocks, readout := some (BitVec.ofNat 16 s.trans.blocks) } }
    ∧ exec (.wideLowRead .gen) s = .next { s with bus := { s.bus with
      genLatch := s.store.newestGen, readout := some (BitVec.ofNat 16 s.store.newestGen) } }
    ∧ exec (.wideLowRead .pos) s = .next { s with bus := { s.bus with
      posLatch := s.patrol.pos, readout := some (BitVec.ofNat 16 s.patrol.pos) } }
    ∧ s.regValue 19 = BitVec.ofNat 16 (s.bus.capLatch / 65536 % 4096)
    ∧ s.regValue 24 = BitVec.ofNat 16 (s.bus.genLatch / 65536)
    ∧ s.regValue 35 = BitVec.ofNat 16 (s.bus.posLatch / 65536 % 4096)
    ∧ (∀ a : BitVec 6, (s.readAt a).bus.readout = some (s.regValue a))
    ∧ (∀ a : BitVec 6, a ≠ 14 → a ≠ 16 → a ≠ 18 → a ≠ 23 → a ≠ 34 → a ≠ 38 →
        s.readAt a = { s with bus := { s.bus with readout := some (s.regValue a) } })
    ∧ exec (.dataRead .p0) s = .next (s.readAt 14) ∧ exec (.dataRead .p1) s = .next (s.readAt 16)
    ∧ exec (.wideLowRead .cap) s = .next (s.readAt 18) ∧ exec (.wideLowRead .gen) s = .next (s.readAt 23)
    ∧ exec (.wideLowRead .pos) s = .next (s.readAt 34) ∧ exec .tableD0Read s = .next (s.readAt 38))
  ∧ ∀ (s : State) (i : Nat),
    let word (n : Nat) : Word := BitVec.ofNat 16 n
    let tag (x : Option Tag) : Nat := match x with | some t => t % 8 | none => 0
    let present (x : Option Tag) : Nat := if x = none then 0 else 1
    let blank : TableView := { d0 := 0, d1 := 0, d2 := 0, d3 := 0 }
    (∀ x, s.trans.remap[i]? = some x → s.viewEntry 0 i = {
        d0 := word (1 + 256 * OriginNumber x.origin), d1 := word (x.spare % 256)
        d2 := word x.lba, d3 := word (x.lba / 65536 % 4096) })
    ∧ (∀ x, s.trans.suspects[i]? = some x → s.viewEntry 1 i = {
        d0 := word (1 + 256 * CauseNumber x.cause), d1 := 0, d2 := word x.lba, d3 := word (x.lba / 65536 % 4096) })
    ∧ (∀ x, s.trans.spares[i]? = some x → s.viewEntry 2 i = {
        d0 := word (1 + 256 * (match x with | .free => 0 | .reserved => 1 | .mapped => 2 | .retired => 3))
        d1 := 0, d2 := 0, d3 := 0 })
    ∧ (∀ x, s.rpr.queue[i]? = some x → s.viewEntry 3 i = {
        d0 := word (1 + (if x.kind = .remapWrite then 256 else 0) + 512 * OriginNumber x.origin
          + 2048 * present x.relTag + 4096 * present x.wtTag)
        d1 := word ((if x.kind = .remapWrite then x.slot.getD 0 % 64 else 0) + 256 * tag x.relTag + 4096 * tag x.wtTag)
        d2 := word x.lba, d3 := word (x.lba / 65536 % 4096) })
    ∧ (s.trans.remap.length ≤ i → s.viewEntry 0 i = blank) ∧ (s.trans.suspects.length ≤ i → s.viewEntry 1 i = blank)
    ∧ (s.trans.spares.length ≤ i → s.viewEntry 2 i = blank) ∧ (s.rpr.queue.length ≤ i → s.viewEntry 3 i = blank)

/-- INT_N is asserted while REPORT_IE is 1 and the report queue holds a record, or PORT_IE is 1 and a port has attention: it
is READY with word index 0. It is released while RESET_N is asserted (R96, R194). -/
def Obligations.InterruptFollowsItsConditions : Prop :=
  ∀ s : State, s.intAsserted = true ↔
    s.bus.resetLow = false
      ∧ ((s.bus.reportIe = true ∧ s.rep.recs ≠ [])
        ∨ (s.bus.portIe = true ∧ ∃ p b i, (s.ports.get p).bound = some b ∧ b.word = 0
            ∧ ((b.dir = .read ∧ s.deliverable b = some i) ∨ (b.dir = .write ∧ s.fillable b = some i))))

/-! ## CONTROL -/

/-- Every row that writes CONTROL takes the five steps of the write in order, in one event (R187): the stored fields, the
reopen request, patrol, the soft reset, and the discard of a quiesce that was under way before the write. -/
def Obligations.ControlWriteTakesFiveSteps : Prop :=
  ∀ (c : Instr) (v : Word) (s : State), controlRow c = some v → s.bus.resetLow = false →
    let e1 : Ev := { s.begin with
      bus := { s.bus with stageEn := v.getLsbD 0, patrolCont := v.getLsbD 2, reportIe := v.getLsbD 3
                          portIe := v.getLsbD 4, discard := v.getLsbD 6 } }
    let e2 := if v.getLsbD 7 then e1.reopen else e1
    let e3 :=
      if v.getLsbD 1 = e2.patrol.enabled then e2 else if v.getLsbD 1 then e2.patrolEnable else e2.patrolDisable
    let e4 := if v.getLsbD 5 then e3.softResetRequest else e3
    let e5 := if s.store.run = .quiesce ∧ v.getLsbD 6 = true ∧ e4.store.discarded = false then e4.discardNow else e4
    exec c s = .next e5.close

/-- A reopen request: it opens a LATCHED gate whose line is released, zeroes the counter and posts
GATE_REOPENED(SOFTWARE); it is refused when the line is asserted, and has no effect in the other states (R127). Outside
QUIESCE, with no soft reset in the write, the gate stands so at the end of the event. -/
def Obligations.ReopenActsOnALatchedGate : Prop :=
  (∀ e : Ev, e.reopen =
    if e.gate.st = .latched then
      if e.gate.line then { e with gate := { e.gate with refused := true } }
      else Ev.notice { e with gate := { e.gate with st := .opened, trips := 0 } } (.gateReopened .software)
    else e)
  ∧ ∀ (v : Word) (s : State), s.bus.resetLow = false → s.store.run ≠ .quiesce → v.getLsbD 7 = true →
    v.getLsbD 5 = false →
    ∃ t, exec (.gateReopen v) s = .next t
      ∧ t.gate = (if s.gate.st = .latched then
          if s.gate.line then { s.gate with refused := true } else { s.gate with st := .opened, trips := 0 }
        else s.gate)

/-- PATROL_EN reads 1 while the unit is not OFF, but not while a RUNNING block finishes without a recorded restart (R156, R164).
An enable request in READY with no PREPARE in flight: with a usable window POS becomes START, the burst count BURST, and the
block at START is taken, so that, when it is not held, its VERIFY waits in the PATROL list; a RUNNING block that finishes goes
on, and a restart is recorded; with another window PATROL_BAD_WINDOW is set, and the unit stays as it is. In another run state,
or with a PREPARE in flight, the request is ignored (R157, R158, R164). A disable: a RUNNING block finishes with PATROL_EN
reading 0, a recorded restart cleared, and from PENDING, SUSPENDED or INTERVAL the unit enters OFF, its job removed and its
timer stopped (R164). A write that leaves PATROL_EN as it reads changes nothing in the unit. The write carries no other request
that acts. -/
def Obligations.PatrolEnableAndDisableAct : Prop :=
  (∀ p : Patrol, p.enabled = true ↔ p.st ≠ .off ∧ ¬ (p.finishing = true ∧ p.restart = false))
  ∧ ∀ (v : Word) (s : State), s.bus.resetLow = false → v.getLsbD 5 = false → v.getLsbD 7 = false →
    (s.store.run = .quiesce → v.getLsbD 6 = false) →
    let e : Ev := { s.begin with
      bus := { s.bus with stageEn := v.getLsbD 0, patrolCont := v.getLsbD 2, reportIe := v.getLsbD 3
                          portIe := v.getLsbD 4, discard := v.getLsbD 6 } }
    let started : Ev := { e with
      patrol := { s.patrol with pos := s.patrol.first, burstLeft := s.patrol.burst, timer := none } }
    let usable : Prop := s.patrol.first ≤ s.patrol.last ∧ s.patrol.last < s.trans.blocks
    let taken : Prop := s.store.run = .ready ∧ s.store.prep = none
    (v.getLsbD 1 = true → s.patrol.enabled = false → taken → usable → s.patrol.st = .off →
      exec (.patrolEnable v) s = .next started.patrolTake.close)
    ∧ (v.getLsbD 1 = true → taken → usable → s.patrol.st = .off → s.held s.patrol.first = false →
      exec (.patrolEnable v) s = .next (Ev.close { started with
        patrol := { started.patrol with st := .pending }
        media := { s.media with patrolQ := s.media.patrolQ ++
          [{ cls := .patrol, owner := .patrol, kind := .verify, target := .lba s.patrol.first, place := none
             attempts := 0, verifyDecision := none, phase := .write }] } }))
    ∧ (v.getLsbD 1 = true → s.patrol.enabled = false → taken → usable → s.patrol.st = .running →
      exec (.patrolEnable v) s = .next (Ev.close { e with patrol := { s.patrol with restart := true } }))
    ∧ (v.getLsbD 1 = true → s.patrol.enabled = false → taken → ¬ usable →
      exec (.patrolEnable v) s = .next (Ev.close { e with patrol := { s.patrol with badWindow := true } }))
    ∧ (v.getLsbD 1 = true → s.patrol.enabled = false → ¬ taken → exec (.patrolEnable v) s = .next e.close)
    ∧ (v.getLsbD 1 = true → s.patrol.enabled = true → exec (.patrolEnable v) s = .next e.close)
    ∧ (v.getLsbD 1 = false → s.patrol.enabled = true → s.patrol.st = .running →
      exec (.patrolDisable v) s
        = .next (Ev.close { e with patrol := { s.patrol with finishing := true, restart := false } }))
    ∧ (v.getLsbD 1 = false → s.patrol.enabled = true → s.patrol.st ≠ .running →
      exec (.patrolDisable v) s = .next (Ev.close { e with
        patrol := { s.patrol with st := .off, burstLeft := 0, finishing := false, restart := false, timer := none }
        media := { s.media with patrolQ := [] } }))
    ∧ (v.getLsbD 1 = false → s.patrol.enabled = false → exec (.patrolDisable v) s = .next e.close)

/-- What DISCARD does to the Translation Unit and the Table Store, with the return state ret, in an event e that began at s (R9,
R153, R183). The RESERVED spare of the active repair becomes FREE, with neither TABLE_DIRTY nor the arming changed by it; S, L,
the remap table and the suspect list stay. A commit in flight leaves its target INVALID with TABLE_DIRTY and TABLE_AT_RISK set,
and the retry timer as it is. A PREPARE in flight ends: with copy A VALID the return state is READY, TABLE_DIRTY and
TABLE_AT_RISK are set, and the SPARE_LOW test is made (log 25: the model's reading); else it is UNPREPARED, with no tables. No
other notice is posted. -/
def DiscardsTables (s : State) (ret : Option RunState) (e : Ev) : Prop :=
  let t : Trans := { s.trans with spares := match s.rpr.active with
    | some { spare := some r, .. } => s.trans.spares.set r .free
    | _ => s.trans.spares }
  let free : Nat := t.spares.countP (· == .free)
  (s.store.commit = none → s.store.prep = none → e.trans = t ∧ e.rep = s.rep
    ∧ e.store = { s.store with run := .quiesce, ret := ret, discarded := true })
  ∧ (∀ c, s.store.commit = some c → e.trans = t ∧ e.rep = s.rep ∧ e.store = { s.store.setCopy c.target .invalid with
      run := .quiesce, ret := ret, discarded := true, commit := none, dirty := true, atRisk := true })
  ∧ (∀ q, s.store.commit = none → s.store.prep = some q → q.aValid = true →
      e.store = { s.store.setCopy q.copy .invalid with
        run := .quiesce, ret := some .ready, discarded := true, prep := none, dirty := true, atRisk := true }
      ∧ (s.trans.spareLow < free → e.trans = { t with armed := true } ∧ e.rep = s.rep)
      ∧ (free ≤ s.trans.spareLow → e.trans = { t with armed := false }
          ∧ e.rep = (Ev.notice { e with rep := s.rep } (.spareLow free)).rep))
  ∧ ∀ q, s.store.commit = none → s.store.prep = some q → q.aValid = false →
      e.store = { s.store.setCopy q.copy .invalid with
        run := .quiesce, ret := some .unprepared, discarded := true, prep := none, dirty := false, atRisk := false }
      ∧ e.trans = { t with spareCount := 0, blocks := 0, remap := [], suspects := [], spares := [] } ∧ e.rep = s.rep

/-- A soft-reset request in READY or UNPREPARED, with no other request than DISCARD: the run state enters QUIESCE; no tag is
owed, the order list is empty, no completion is posted, and the gate is as it was (R83, R181). With DISCARD written 0 the event is
stated whole. State a: the return state is kept; the ports are unbound; the allocator queue, the flush sets and the wait of
RELOCATE commands are empty; FILLING slots are FREE, claims and owners of loads gone, write-through WRITING slots DIRTY at the
tail of the destage list or, when superseded, FREE, and slots whose claims were dropped on the clean list; of the HOST jobs only
the loads stay, as jobs of the Staging Buffer; the entries of the repair queue have no tags, and the active repair, its spare and
the repair buffer stay; patrol is OFF; tables, reports and gate are as they were (R52, R94, R118, R152, R165); that an op whose
owner is gone stays on the link is the model's reading (log 30). State b: under a
LATCHED gate the loads that wait leave the HOST list and their slots become FREE (R42, R132); else b is a. An active repair in
WAIT_WRITE whose write job is gone then takes step 2, as repairActivate does when no write job exists (R139). With DISCARD
written 1 the discard acts in the same event: the buffer keeps CLEAN slots only, LOST_BLOCKS rises by the slots it frees, no job
and no repair is left, and DiscardsTables says what becomes of the tables (R9, R53, R118, R153, R183; log 25: the SPARE_LOW test
of a PREPARE that DISCARD ends is the model's reading). That a superseded write-through WRITING slot is not counted then is no
rule of the spec but the model's choice (log 32). -/
def Obligations.SoftResetEntersQuiesce : Prop :=
  ∀ (v : Word) (s : State), s.bus.resetLow = false → v.getLsbD 5 = true → v.getLsbD 7 = false →
    v.getLsbD 1 = s.patrol.enabled → (s.store.run = .ready ∨ s.store.run = .unprepared) →
    let isTag : Option SlotOwner → Bool := fun o => match o with | some (.tag _) => true | _ => false
    let owed (r : TagRec) : Bool := r.st == .queued || r.st == .active || r.st == .aborting
    let isLoad (j : Job) : Bool := j.cls == .host && j.kind == .read
    let drops (j : Job) : Bool := j.cls == .host && j.kind != .read
    let slot (x : Slot) : Slot :=
      if x.st = .filling then Slot.empty
      else if x.st = .loading then { x with claims := 0, owner := none }
      else if x.st = .writing ∧ isTag x.owner = true then
        (if x.superseded then Slot.empty else { x with st := .dirty, owner := none, claims := 0 })
      else { x with claims := 0 }
    let slotsFor (f : Slot → Bool) : List SlotIx := (List.range s.buf.slots.length).filter (fun i => f (s.buf.slot i))
    let patrolLeft (o : Outstanding) : Outstanding :=
      if o.orphan = none ∧ o.job.any (·.owner == .patrol) = true then { o with orphan := some .patrolQuiesce } else o
    let dropped (o : Outstanding) : Bool := o.orphan.isNone && o.job.any drops
    let kept (o : Outstanding) : Outstanding :=
      if o.job.any isLoad then { o with job := o.job.map (fun j => { j with owner := .staging }) } else o
    let link : Option Outstanding := s.media.link.map patrolLeft
    let a : Ev := { s.begin with
      bus := { s.bus with stageEn := v.getLsbD 0, patrolCont := v.getLsbD 2, reportIe := v.getLsbD 3
                          portIe := v.getLsbD 4, discard := v.getLsbD 6 }
      cmd := { s.cmd with tags := s.cmd.tags.map (fun r => if owed r then TagRec.empty else r), order := [] }
      ports := { p0 := { s.ports.p0 with bound := none }, p1 := { s.ports.p1 with bound := none }, wait := [] }
      buf := { s.buf with
        slots := s.buf.slots.map slot
        destage := s.buf.destage ++ slotsFor (fun x => x.st == .writing && isTag x.owner && !x.superseded)
        clean := s.buf.clean ++ slotsFor (fun x => x.st == .clean && x.claims != 0)
        allocQ := []
        flush := [] }
      rpr := { s.rpr with
        queue := s.rpr.queue.map (fun x => { x with relTag := none, wtTag := none, wtFormer := none })
        wait := [] }
      media := { s.media with
        patrolQ := []
        hostQ := (s.media.hostQ.filter (fun j => !drops j)).map (fun j => { j with owner := .staging })
        link := (link.filter (fun o => !dropped o)).map kept
        opTimer := if link.any dropped then none else s.media.opTimer }
      patrol := { s.patrol with st := .off, burstLeft := 0, finishing := false, restart := false, timer := none }
      store := { s.store with run := .quiesce, ret := some s.store.run, discarded := false } }
    let loads : List SlotIx := a.media.hostQ.filterMap (fun j =>
      match j.kind, j.place with | .read, some (.slot i) => some i | _, _ => none)
    let b : Ev := if s.gate.st = .latched then
        loads.foldl Ev.freeSlot { a with media := { a.media with hostQ := [] } }
      else a
    let wakes : Prop := ∃ x l r,
      b.rpr.queue = x :: l ∧ b.rpr.active = some r ∧ r.step = .waitWrite ∧ b.writeJobOf x.lba = false
    (∀ i ∈ loads, s.gate.st = .latched → b.buf.slot i = Slot.empty)
    ∧ ∃ e : Ev, exec (.softReset v) s = .next e.close
      ∧ e.store.run = .quiesce
      ∧ e.cmd.order = [] ∧ (∀ t, (e.cmd.tag t).owed = false) ∧ e.posted = [] ∧ e.gate = s.gate
      ∧ (∀ t, (s.cmd.tag t).st = .reported → e.cmd.tag t = s.cmd.tag t)
      ∧ e.ports.p0.bound = none ∧ e.ports.p1.bound = none ∧ e.ports.wait = [] ∧ e.buf.allocQ = [] ∧ e.buf.flush = []
      ∧ e.rpr.wait = [] ∧ e.patrol.st = .off ∧ e.media.patrolQ = [] ∧ (∀ i, (e.buf.slot i).st ≠ .filling)
      ∧ (v.getLsbD 6 = false → wakes → e = Ev.repairActivate { b with rpr := { b.rpr with active := none } })
      ∧ (v.getLsbD 6 = false → ¬ wakes → e = b)
      ∧ (v.getLsbD 6 = true → (s.store.commit = none ∨ s.store.prep = none) →
          (∀ i, (e.buf.slot i).st = .free ∨ (e.buf.slot i).st = .clean)
          ∧ e.buf.lost = min 0xFFFF (s.buf.lost + s.buf.slots.countP (fun x => x.st == .dirty || x.st == .pinned
              || (x.st == .writing && !(isTag x.owner && x.superseded))))
          ∧ e.rpr.queue = [] ∧ e.rpr.active = none ∧ e.media.link = none ∧ e.media.tableQ = [] ∧ e.media.hostQ = []
          ∧ e.media.destageQ = [] ∧ e.media.repairQ = [] ∧ e.store.commit = none ∧ e.store.prep = none
          ∧ DiscardsTables s (some s.store.run) e)

/-- DISCARD written 1 during a quiesce in which it has not acted: the DIRTY, WRITING, PINNED and LOADING slots become FREE and
no other slot changes, LOST_BLOCKS rises by the DIRTY, WRITING and PINNED slots up to FFFFh, the flush sets, the repair queue
and every job list are empty, the link is idle, and no commit or PREPARE is in flight; DiscardsTables says what becomes of the
tables; commands, ports, gate and patrol stay (R9, R53, R118, R153, R183; log 25: the SPARE_LOW test of a PREPARE that DISCARD
ends is the model's reading). That PINNED slots are freed and counted in a buffer that is drained already is the model's choice
(log 33). In a quiesce in which it has acted, and outside a quiesce, it is stored, and no more. The write carries no other
request. -/
def Obligations.DiscardFreesTheBuffer : Prop :=
  ∀ (v : Word) (s : State), s.bus.resetLow = false → v.getLsbD 6 = true → v.getLsbD 7 = false → v.getLsbD 5 = false →
    v.getLsbD 1 = s.patrol.enabled →
    let bus : Bus := { s.bus with stageEn := v.getLsbD 0, patrolCont := v.getLsbD 2, reportIe := v.getLsbD 3
                                  portIe := v.getLsbD 4, discard := true }
    ((s.store.run ≠ .quiesce ∨ s.store.discarded = true) →
      exec (.discard v) s = .next (Ev.close { s.begin with bus := bus }))
    ∧ (s.store.run = .quiesce → s.store.discarded = false → (s.store.commit = none ∨ s.store.prep = none) →
      let lost (x : Slot) : Bool := x.st == .dirty || x.st == .writing || x.st == .pinned
      ∃ e : Ev, exec (.discard v) s = .next e.close
        ∧ e.buf.slots = s.buf.slots.map (fun x => if lost x || x.st == .loading then Slot.empty else x)
        ∧ e.buf.lost = min 0xFFFF (s.buf.lost + s.buf.slots.countP lost)
        ∧ e.buf.flush = [] ∧ e.buf.allocQ = s.buf.allocQ
        ∧ e.rpr = { s.rpr with queue := [], active := none, buf := [] }
        ∧ e.media = { s.media with
            link := none, opTimer := none, tableQ := [], hostQ := [], destageQ := [], repairQ := [], patrolQ := [] }
        ∧ e.store.commit = none ∧ e.store.prep = none ∧ DiscardsTables s s.store.ret e
        ∧ e.bus = bus ∧ e.cmd = s.cmd ∧ e.ports = s.ports ∧ e.gate = s.gate ∧ e.patrol = s.patrol ∧ e.posted = [])

/-! ## Responses -/

/-- Answers that end no job. A response with nothing outstanding, with another sequence number, or whose outcome and fields
do not fit the op, is discarded (R100). An UNRECOVERED answer of a READ or VERIFY is retried while READ_RETRIES allows: the
job returns to the head of its list with one more attempt (R109). The answer of an op whose job has no owner left is applied
to nothing; a patrol VERIFY that was on the link at the entry to QUIESCE has its final outcome applied, and POS rises by 1
(R116, R165); that POS rises also when software has enabled patrol again before the answer is the model's choice
(log 16). In all but the discarded ones the link is idle, the timer stopped and the trip counter 0 (R125). -/
def Obligations.AnswersThatEndNoJob : Prop :=
  (∀ (f : Response) (s : State),
    (s.media.link = none ∨ ∃ o, s.media.link = some o ∧ (o.seq ≠ f.seq ∨ fits f.body o.op = false)) →
    exec (.responseFrame f) s = .next s)
  ∧ (∀ (o : Outstanding) (j : Job) (s : State), s.bus.resetLow = false → s.media.link = some o → o.job = some j →
    o.orphan = none → (o.op = .read ∨ o.op = .verify) → j.attempts + 1 ≤ s.media.readRetries →
    exec (.responseFrame { seq := o.seq, body := .unrecovered }) s = .next (Ev.close { s.begin with
      media := Media.requeue { s.media with link := none, opTimer := none } { j with attempts := j.attempts + 1 }
      gate := { s.gate with trips := 0 } }))
  ∧ (∀ (o : Outstanding) (j : Job) (b : Body) (s : State), s.bus.resetLow = false → s.media.link = some o →
    o.job = some j → o.orphan = some .applyNothing → fits b o.op = true → b ≠ .unitFault →
    exec (.responseFrame { seq := o.seq, body := b }) s = .next s.answerTaken.close)
  ∧ (∀ (o : Outstanding) (j : Job) (n : Lba) (b : Body) (s : State), s.bus.resetLow = false → s.media.link = some o →
    o.job = some j → o.orphan = some .patrolQuiesce → o.op = j.opOf → j.kind = .verify → j.target = .lba n →
    let answers (e : Ev) : Prop := exec (.responseFrame { seq := o.seq, body := b }) s = .next e.close
    let late (e : Ev) : Ev := { e with patrol := { e.patrol with pos := e.patrol.pos + 1 } }
    (s.AnswersWell j b → answers (late (s.answerTaken.suspectClear n .readGood)))
    ∧ (s.AnswersWeak j b → answers (late (s.answerTaken.relocateRequest n)))
    ∧ (s.AnswersFailed j b → answers (late (s.answerTaken.suspectAdd n .patrol)))
    ∧ (b = .unrecovered → j.attempts + 1 ≤ s.media.readRetries → answers s.answerTaken))

/-- A GOOD answer of IDENTIFY: the retry timer stops, P is kept, the trip counter returns to 0 (R103, R125). For a unit that
is not usable the run state becomes UNIT_REJECTED; for a usable one it becomes LOADING, and the READ of block 0 of copy A
joins the TABLE list (R176, R177). With the filtered line asserted as LOADING is entered, a FAULT_LINE trip is taken first, and
the gate holds or latches (R121, R124). Outside that trip the gate and the run state stand so at the end of the event. A
UNIT_FAULT answer leaves the link idle, and the retry timer goes on (R103). -/
def Obligations.IdentifyAnswerEndsStarting : Prop :=
  ∀ (o : Outstanding) (p size : Nat) (s : State), s.bus.resetLow = false → s.media.link = some o →
    o.op = .identify → o.job = none →
    let usable : Prop := 8192 ≤ p ∧ p ≤ 268435456 ∧ size = 512
    let answers (e : Ev) : Prop :=
      exec (.responseFrame { seq := o.seq, body := .goodIdentify p size }) s = .next e.close
    let a : Ev := { s.begin with
      media := { s.media with link := none, opTimer := none, identTimer := false, cap := some p }
      gate := { s.gate with trips := 0 } }
    let loading : Ev := { a with store := { s.store with
      run := .loading, staging := [], load := some { copy := .a, block := 0, candidate := none, mismatch := false } } }
    let reads (e : Ev) : Ev := { e with media := { e.media with tableQ := e.media.tableQ ++
      [{ cls := .table, owner := .store, kind := .read, target := .pba (p - 16), place := some (.image 0)
         attempts := 0, verifyDecision := none, phase := .write }] } }
    let rejected : Ev := { a with store := { s.store with run := .unitRejected } }
    let tripped : Ev := Ev.notice { loading with gate := { s.gate with trips := 1 } } (.trip .faultLine)
    (¬ usable → answers rejected ∧ rejected.close.gate = a.gate ∧ rejected.close.store.run = .unitRejected)
    ∧ (usable → (s.gate.filter ≠ .asserted ∨ s.gate.st ≠ .opened) →
        answers (reads loading) ∧ (reads loading).close.gate = a.gate ∧ (reads loading).close.store.run = .loading)
    ∧ (usable → s.gate.filter = .asserted → s.gate.st = .opened → s.gate.mode = .auto → 1 < s.gate.tripLimit →
        answers (reads { tripped with gate := { tripped.gate with st := .hold, holdTimer := some s.gate.holdCfg } }))
    ∧ (usable → s.gate.filter = .asserted → s.gate.st = .opened → (s.gate.mode = .latched ∨ s.gate.tripLimit ≤ 1) →
        answers (reads tripped.latch))
    ∧ exec (.responseFrame { seq := o.seq, body := .unitFault }) s
        = .next (Ev.close { s.begin with media := { s.media with link := none, opTimer := none } })


/-- The ends of a load, of a READ or detached. A GOOD answer that is a pass puts its words in the slot, which is CLEAN and has no
owner, joins the clean list when no claim is on it, and the load's LBA is no suspect any more (R16, R41, R114). A GOOD answer that is no pass makes a RELOCATE request of
origin CORRECTED_READ and the slot CLEAN with the words (R41, R112, R136). A final UNRECOVERED makes the slot FREE, and every
READ that claims it completes READ_FAILED with the LBA, blocks done as it stands, its port unbound, its request gone, its other
claims dropped and its other loads detached; the CLEAN slots that lose their last claim join the tail of the clean list (R42,
R51, R65), in an order that is left open here (log 12); when there is one, a suspect entry with cause HOST is requested (R15, R41, R42). The RELOCATE request: nothing for a held LBA, an entry at the tail while the queue
holds 6 entries or fewer, RELOCATE_DROPPED otherwise (R136). The suspect list: an add request does nothing for a listed LBA,
and else appends the entry with its cause, sets TABLE_DIRTY and posts SUSPECT_ADDED while fewer than 32 entries stand, and
posts SUSPECT_FULL otherwise (R14); a removal takes the entry out, sets TABLE_DIRTY and posts SUSPECT_CLEARED, and does nothing
for an LBA that is not listed (R16, R18). -/
def Obligations.LoadEndsAsItIsAnswered : Prop :=
  (∀ (o : Outstanding) (j : Job) (i : SlotIx) (n : Lba) (w : List Word) (level : Nat) (s : State), s.Awaits o j →
    j.kind = .read → ((∃ t, j.owner = .tag t) ∨ j.owner = .staging) → j.place = some (.slot i) → j.target = .lba n →
    s.AnswersWell j (.goodRead level (.words w)) → i < s.buf.slots.length → (s.buf.slot i).st = .loading →
    let a : Ev := s.answerTaken.suspectClear n .readGood
    let e : Ev := { a with buf := { s.buf with
      slots := s.buf.slots.set i { s.buf.slot i with st := .clean, owner := none, data := w }
      clean := if (s.buf.slot i).claims = 0 then s.buf.clean ++ [i] else s.buf.clean } }
    exec (.responseFrame { seq := o.seq, body := .goodRead level (.words w) }) s = .next e.close
      ∧ e.buf.slot i = { s.buf.slot i with st := .clean, owner := none, data := w }
      ∧ (∀ k, k ≠ i → e.buf.slot k = s.buf.slot k) ∧ e.cmd = s.cmd ∧ e.ports = s.ports ∧ e.rpr = s.rpr
      ∧ e.bus = s.bus ∧ e.patrol = s.patrol
      ∧ e.trans.suspect n = false ∧ e.media = { s.media with link := none, opTimer := none }
      ∧ e.gate = { s.gate with trips := 0 })
  ∧ (∀ (o : Outstanding) (j : Job) (i : SlotIx) (n : Lba) (b : Body) (s : State), s.Awaits o j → j.kind = .read →
    (j.owner = .staging ∨ ∃ t, j.owner = .tag t) → j.place = some (.slot i) → j.target = .lba n →
    i < s.buf.slots.length → (s.buf.slot i).st = .loading →
    let a := s.answerTaken
    (∀ level w, b = .goodRead level (.words w) → s.AnswersWeak j b →
      let e : Ev := (a.setSlot i { s.buf.slot i with data := w }).relocateRequest n
      exec (.responseFrame { seq := o.seq, body := b }) s = .next (Ev.close
        (if (e.buf.slot i).st = .loading then e.setSlot i { e.buf.slot i with st := .clean, owner := none } else e))
      ∧ ((s.rpr.queue = [] ∨ s.rpr.active ≠ none) → e.buf.slot i = { s.buf.slot i with data := w }))
    ∧ (s.AnswersFailed j b → s.cmd.order.Nodup →
      (∀ t ∈ s.cmd.order, (s.cmd.tag t).owed = true) →
      let fails (t : Tag) : Bool := (s.cmd.claimants i).contains t
      let freed (p : Port) : Port := if p.bound.any (fun c => fails c.tag) then { p with bound := none } else p
      let owned (x : Slot) : Bool := match x.owner with | some (.tag t) => fails t | _ => false
      ∃ e : Ev, exec (.responseFrame { seq := o.seq, body := b }) s = .next e.close
        ∧ e.buf.slot i = Slot.empty
        ∧ (∀ t, t ∈ s.cmd.claimants i →
            (e.cmd.tag t).st = .reported ∧ ∃ p ∈ e.posted, p.report = .completion t .readFailed (s.cmd.tag t).done n)
        ∧ (∀ t, t ∉ s.cmd.claimants i → e.cmd.tag t = s.cmd.tag t)
        ∧ e.posted.length = (s.cmd.claimants i).length
        ∧ e.cmd.order = s.cmd.order.filter (fun t => !fails t)
        ∧ e.ports = { s.ports with p0 := freed s.ports.p0, p1 := freed s.ports.p1 }
        ∧ (∀ k, k ≠ i → k < s.buf.slots.length → let x := s.buf.slot k
            e.buf.slot k = if x.st = .filling ∧ owned x = true then Slot.empty
              else { x with
                claims := x.claims - ((s.cmd.claimants i).map (fun t => (s.cmd.tag t).claims.countP (·.2 == k))).sum
                owner := if x.st = .loading ∧ owned x = true then none else x.owner })
        ∧ e.buf = { s.buf with
            slots := e.buf.slots, clean := e.buf.clean, allocQ := s.buf.allocQ.filter (fun q => !fails q.tag) }
        ∧ (∃ l, e.buf.clean = s.buf.clean ++ l ∧ l.Nodup
            ∧ ∀ k, k ∈ l ↔ (s.buf.slot k).st = .clean ∧ (s.buf.slot k).claims ≠ 0 ∧ (e.buf.slot k).claims = 0)
        ∧ e.media = { s.media with
            link := none, opTimer := none
            hostQ := s.media.hostQ.map (fun y => match y.owner, y.kind with
              | .tag t, .read => if fails t then { y with owner := .staging } else y
              | _, _ => y) }
        ∧ e.order0 = s.cmd.order ∧ e.flushKey = 0 ∧ e.paused = false
        ∧ e.gate = a.gate ∧ e.rpr = s.rpr ∧ e.patrol = s.patrol ∧ e.bus = s.bus
        ∧ (s.cmd.claimants i = [] → e.trans = s.trans ∧ e.rep = s.rep ∧ e.store = s.store)
        ∧ (s.cmd.claimants i ≠ [] → e.trans = (a.suspectAdd n .host).trans ∧ e.store = (a.suspectAdd n .host).store
            ∧ e.rep = (a.suspectAdd n .host).rep)))
  ∧ (∀ (e : Ev) (n : Lba) (c : Cause) (how : ClearedBy),
    let listed : Prop := ∃ x ∈ e.trans.suspects, x.lba = n
    (listed → e.suspectAdd n c = e)
    ∧ (¬ listed → e.trans.suspects.length < 32 → e.suspectAdd n c = Ev.notice { e with
        trans := { e.trans with suspects := e.trans.suspects ++ [{ lba := n, cause := c }] }
        store := { e.store with dirty := true } } (.suspectAdded n c))
    ∧ (¬ listed → 32 ≤ e.trans.suspects.length → e.suspectAdd n c = e.notice (.suspectFull n))
    ∧ (listed → e.suspectClear n how = Ev.notice { e with
        trans := { e.trans with suspects := e.trans.suspects.filter (·.lba != n) }
        store := { e.store with dirty := true } } (.suspectCleared n how))
    ∧ (¬ listed → e.suspectClear n how = e))
  ∧ ∀ (e : Ev) (n : Lba),
    ((∃ x ∈ e.rpr.queue, x.lba = n) → e.relocateRequest n = e)
    ∧ ((∀ x ∈ e.rpr.queue, x.lba ≠ n) → e.rpr.queue.length ≤ 6 →
        e.relocateRequest n = (Ev.admissionWalk { e with rpr := { e.rpr with queue := e.rpr.queue ++
          [{ kind := .relocate, lba := n, origin := .correctedRead, slot := none, relTag := none, wtTag := none }] }
          }).repairActivate)
    ∧ ((∀ x ∈ e.rpr.queue, x.lba ≠ n) → 6 < e.rpr.queue.length →
        e.relocateRequest n = e.notice (.relocateDropped n))

/-- The ends of a write job, of destage or write-through (R38, R39, R45, R115). A GOOD WRITE with a verify decision goes on to
its VERIFY phase at the head of its list. A GOOD WRITE without one, or a VERIFY that passes, which also removes the suspect
entry with SUSPECT_CLEARED(WRITE_VERIFIED) (R18), makes the slot CLEAN, or FREE when it is superseded, and tells the WRITE. A
fault, or a VERIFY that does not pass, makes the repair the slot's owner and a REMAP_WRITE request with the command's tag: it
joins the queue at the tail, or takes the place of the LBA's entry (R135). A WRITE that is told counts the block, and
completes when that was the last one it waited for (R66, R67, R76). -/
def Obligations.WriteJobEnds : Prop :=
  (∀ (o : Outstanding) (j : Job) (i : SlotIx) (n : Lba) (b : Body) (s : State), s.Awaits o j → j.kind = .write →
    (j.owner = .staging ∨ ∃ t, j.owner = .tag t) → j.place = some (.slot i) → j.target = .lba n →
    let answers (e : Ev) : Prop := exec (.responseFrame { seq := o.seq, body := b }) s = .next e.close
    let a := s.answerTaken
    let x := s.buf.slot i
    let leaves (e : Ev) : Ev := e.setSlot i (if x.superseded then Slot.empty else { x with st := .clean, owner := none })
    let wt : Option Tag := match j.owner with | .tag t => some t | _ => none
    let tells (e : Ev) : Ev := match wt with | some t => e.writeEnded 0 t | none => e
    (j.phase = .write → j.verifyDecision = some true → s.AnswersWell j b →
      answers { a with media := Media.requeue a.media { j with phase := .verify, attempts := 0 } })
    ∧ (j.phase = .write → j.verifyDecision ≠ some true → s.AnswersWell j b → answers (tells (leaves a)).repairWake)
    ∧ (j.phase = .verify → s.AnswersWell j b →
      answers (tells (leaves (a.suspectClear n .writeVerified))).repairWake)
    ∧ ((s.AnswersFailed j b ∨ s.AnswersWeak j b) →
      answers ((a.setSlot i { x with owner := some .repair }).remapRequest n i wt)))
  ∧ (∀ (e : Ev) (n : Lba) (i : SlotIx) (wt : Option Tag),
    ((∀ y ∈ e.rpr.queue, y.lba ≠ n) → e.remapRequest n i wt =
      (Ev.admissionWalk { e with rpr := { e.rpr with queue := e.rpr.queue ++
        [{ kind := .remapWrite, lba := n, origin := .writeFault, slot := some i, relTag := none, wtTag := wt }] }
        }).repairActivate)
    ∧ (∀ pre y post, e.rpr.queue = pre ++ y :: post → (∀ z ∈ pre, z.lba ≠ n) → y.lba = n → e.remapRequest n i wt =
      Ev.repairWake { e with rpr := { e.rpr with queue := pre ++
        { y with kind := .remapWrite, origin := .writeFault, slot := some i, wtTag := wt } :: post } }))
  ∧ ∀ (e : Ev) (t : Tag), t < e.cmd.tags.length →
    let r := e.cmd.tag t
    let f := e.setTag t { r with done := r.done + 1 }
    e.writeEnded 0 t =
      if r.st = .active then
        match r.failure with
        | some (st, m) => if f.owedBlocks t = 0 then f.complete t st m else f
        | none => if r.done + 1 = r.count then f.complete t .good r.lba else f
      else if r.st = .aborting then (if f.owedBlocks t = 0 then f.complete t .aborted r.lba else f)
      else f

/-- The outcomes of a VERIFY of a VERIFY command (R68): a GOOD one counts its block, with the level tests, and the command
goes on; a final UNRECOVERED ends it VERIFY_FAILED with the block's LBA, with a suspect entry of cause HOST requested and its
waiting VERIFY jobs removed. The command goes on: it completes GOOD when all blocks are done; it reaches its next block when
nothing is owed, or one block is owed and the next is not to be skipped (log 11: that reading of the block order is the
model's); a block whose current slot is DIRTY, WRITING or PINNED is skipped and done; for another one a VERIFY job is made,
and under a LATCHED gate the command ends MEDIA_UNAVAILABLE with that LBA (R130). -/
def Obligations.VerifyCommandGoesOnOrFails : Prop :=
  (∀ (o : Outstanding) (j : Job) (t : Tag) (n : Lba) (b : Body) (s : State), s.Awaits o j → j.kind = .verify →
    j.owner = .tag t → j.target = .lba n →
    let answers (e : Ev) : Prop := exec (.responseFrame { seq := o.seq, body := b }) s = .next e.close
    let a := s.answerTaken
    let counted (e : Ev) : Ev := e.setTag t { e.cmd.tag t with done := (e.cmd.tag t).done + 1 }
    (s.AnswersWell j b → answers ((counted (a.suspectClear n .readGood)).verifyAdvance t))
    ∧ (s.AnswersWeak j b → answers ((counted (a.relocateRequest n)).verifyAdvance t))
    ∧ (s.AnswersFailed j b →
      let e := a.suspectAdd n .host
      let left := e.media.hostQ.filter (fun k => !(k.owner == .tag t && k.kind == .verify))
      answers (Ev.complete { e with media := { e.media with hostQ := left } } t .verifyFailed n)))
  ∧ ∀ (e : Ev) (t : Tag),
    let r := e.cmd.tag t
    let n := r.lba + r.looked
    let skips : Prop := ∃ i, e.buf.lookup n = some i
      ∧ ((e.buf.slot i).st = .dirty ∨ (e.buf.slot i).st = .writing ∨ (e.buf.slot i).st = .pinned)
    let may : Prop := r.looked < r.count ∧ (e.owedVerifies t = 0 ∨ (e.owedVerifies t = 1 ∧ ¬ skips))
    let f := e.setTag t { r with looked := r.looked + 1 }
    let going : Prop := r.op = some .verify ∧ r.st = .active
    (¬ going → e.verifyAdvance t = e)
    ∧ (going → r.done = r.count → e.verifyAdvance t = e.complete t .good r.lba)
    ∧ (going → r.done ≠ r.count → ¬ may → e.verifyAdvance t = e)
    ∧ (going → r.done ≠ r.count → may → e.verifyAdvance t = (e.verifyReach t).verifyGo 64 t)
    ∧ (∀ k, going → r.done ≠ r.count → may → e.verifyGo (k + 1) t = (e.verifyReach t).verifyGo k t)
    ∧ (t < e.cmd.tags.length → skips →
        e.verifyReach t = e.setTag t { r with looked := r.looked + 1, done := r.done + 1 })
    ∧ (¬ skips → e.gate.st = .latched →
        let left := f.media.hostQ.filter (fun k => !(k.owner == .tag t && k.kind == .verify))
        e.verifyReach t = Ev.complete { f with media := { f.media with hostQ := left } } t .mediaUnavailable n)
    ∧ (¬ skips → e.gate.st ≠ .latched → e.verifyReach t = { f with media := { f.media with hostQ := f.media.hostQ ++
        [{ cls := .host, owner := .tag t, kind := .verify, target := .lba n, place := none, attempts := 0
           verifyDecision := none, phase := .write }] } })

/-- The final outcome of a patrol VERIFY (R159): a pass removes the suspect entry, a weak level makes a RELOCATE request, an
UNRECOVERED requests a suspect entry with cause PATROL; then the block ends. At its end POS rises by 1 and the burst count
falls by 1, and the first test that applies decides: above END the pass has ended, with PATROL_PASS_DONE(END), and with
PATROL_CONT the walk starts again at START as at a burst end, else the unit is OFF; with the burst count 0 the unit waits for
the interval, or, with INTERVAL 0, begins a new burst; with higher work eligible it is SUSPENDED; else the block at POS is
taken (R160, R162, R163). After a disable it enters OFF, or restarts at START (R164). A block that is taken is skipped when its
LBA is held, and else its VERIFY is created (R158); log 15 for a walk that goes round held blocks alone. That these tests come
before a commit start or a destage offer of the same event is the model's reading (log 24). -/
def Obligations.PatrolBlockEnds : Prop :=
  (∀ (o : Outstanding) (j : Job) (n : Lba) (b : Body) (s : State), s.Awaits o j → j.kind = .verify →
    j.owner = .patrol → j.target = .lba n →
    let answers (e : Ev) : Prop := exec (.responseFrame { seq := o.seq, body := b }) s = .next e.close
    (s.AnswersWell j b → answers (s.answerTaken.suspectClear n .readGood).patrolEnded)
    ∧ (s.AnswersWeak j b → answers (s.answerTaken.relocateRequest n).patrolEnded)
    ∧ (s.AnswersFailed j b → answers (s.answerTaken.suspectAdd n .patrol).patrolEnded))
  ∧ (∀ e : Ev,
    let q : Patrol := { e.patrol with pos := e.patrol.pos + 1, burstLeft := e.patrol.burstLeft - 1 }
    let f : Ev := { e with patrol := q }
    let off (x : Ev) : Ev := { x with
      patrol := { q with st := .off, burstLeft := 0, finishing := false, restart := false, timer := none } }
    let passed : Prop := q.last < q.pos
    (q.finishing = false → e.patrolEnded = f.patrolNext)
    ∧ (q.finishing = true → q.restart = true → e.patrolEnded =
        Ev.patrolTake { e with patrol := { q with
          finishing := false, restart := false, pos := q.first, burstLeft := q.burst, timer := none } })
    ∧ (q.finishing = true → q.restart = false → passed → e.patrolEnded = off (f.notice (.patrolPassDone q.last)))
    ∧ (q.finishing = true → q.restart = false → ¬ passed → e.patrolEnded = off f))
  ∧ (∀ e : Ev,
    let q := e.patrol
    let rest (x : Ev) (p : Patrol) : Ev :=
      { x with patrol := { p with st := .interval, burstLeft := 0, timer := some p.interval } }
    let done := e.notice (.patrolPassDone q.last)
    (q.last < q.pos → e.bus.patrolCont = false → e.patrolNext = { done with
        patrol := { q with st := .off, burstLeft := 0, finishing := false, restart := false, timer := none } })
    ∧ (q.last < q.pos → e.bus.patrolCont = true → q.interval ≠ 0 →
        e.patrolNext = rest done { q with pos := q.first })
    ∧ (q.last < q.pos → e.bus.patrolCont = true → q.interval = 0 →
        e.patrolNext = Ev.patrolTake { done with patrol := { q with pos := q.first, burstLeft := q.burst } })
    ∧ (q.pos ≤ q.last → q.burstLeft = 0 → q.interval ≠ 0 → e.patrolNext = rest e q)
    ∧ (q.pos ≤ q.last → q.burstLeft = 0 → q.interval = 0 →
        e.patrolNext = Ev.patrolTake { e with patrol := { q with burstLeft := q.burst } })
    ∧ (q.pos ≤ q.last → q.burstLeft ≠ 0 → e.higherWork = true →
        e.patrolNext = { e with patrol := { q with st := .suspended } })
    ∧ (q.pos ≤ q.last → q.burstLeft ≠ 0 → e.higherWork = false → e.patrolNext = e.patrolTake))
  ∧ ∀ (k : Nat) (e : Ev),
    let f : Ev := { e with patrol := { e.patrol with pos := e.patrol.pos + 1, burstLeft := e.patrol.burstLeft - 1 } }
    e.patrolTake = e.patrolWalk 64
    ∧ (e.held e.patrol.pos = false → e.patrolWalk (k + 1) = { e with
        patrol := { e.patrol with st := .pending }
        media := { e.media with patrolQ := e.media.patrolQ ++
          [{ cls := .patrol, owner := .patrol, kind := .verify, target := .lba e.patrol.pos, place := none
             attempts := 0, verifyDecision := none, phase := .write }] } })
    ∧ (e.held e.patrol.pos = true → ∀ g, f.between = .rest g → e.patrolWalk (k + 1) = g ∧ f.patrolNext = g)
    ∧ (e.held e.patrol.pos = true → ∀ g, f.between = .take g → e.patrolWalk (k + 1) = g.patrolWalk k
        ∧ f.patrolNext = g.patrolTake)

/-- The steps of the active repair (R140 to R145). Its READ: GOOD fills the repair buffer, a pass removes the suspect entry,
and a spare is reserved; a final UNRECOVERED requests a suspect entry with cause REREAD and ends it REREAD_FAILED. Its WRITE:
GOOD makes the VERIFY of the spare. A WRITE_FAULT, or a VERIFY that does not pass, makes the spare RETIRED and reserves
another. A VERIFY that passes updates the tables (R5): the LBA translates to the new spare, which is MAPPED, its old spare is
RETIRED, its suspect entry is gone, TABLE_DIRTY is set, REMAPPED is posted, and the repair stands in COMMIT_WAIT. A
reservation takes the lowest FREE spare, with the SPARE_LOW test, and makes the WRITE of the spare; with none FREE the repair
ends (R8, R11, R142). -/
def Obligations.RepairTakesItsSteps : Prop :=
  (∀ (o : Outstanding) (j : Job) (b : Body) (x : RepairEntry) (l : List RepairEntry) (ac : ActiveRepair) (s : State),
    s.Awaits o j → j.owner = .repair → j.phase = .write → s.rpr.queue = x :: l → s.rpr.active = some ac →
    let answers (e : Ev) : Prop := exec (.responseFrame { seq := o.seq, body := b }) s = .next e.close
    let a := s.answerTaken
    (∀ level w, b = .goodRead level (.words w) → j.kind = .read →
      let e : Ev := { a with rpr := { s.rpr with buf := w } }
      (s.AnswersWell j b → answers ((e.suspectClear x.lba .readGood).repairReserve x .repairBuf))
      ∧ (s.AnswersWeak j b → answers (e.repairReserve x .repairBuf)))
    ∧ (j.kind = .read → s.AnswersFailed j b →
      answers ((a.suspectAdd x.lba .reread).relocationFailed x .rereadFailed))
    ∧ ∀ r p, ac.spare = some r → ac.place = some p →
      (j.kind = .write → s.AnswersWell j b → answers { a with
        rpr := { s.rpr with active := some { ac with step := .spareVerify } }
        media := { a.media with repairQ := s.media.repairQ ++
          [{ cls := .repair, owner := .repair, kind := .verify, target := .pba (s.trans.blocks + r), place := none
             attempts := 0, verifyDecision := none, phase := .write }] } })
      ∧ (((j.kind = .write ∧ s.AnswersFailed j b) ∨ (j.kind = .verify ∧ (s.AnswersFailed j b ∨ s.AnswersWeak j b))) →
        answers (Ev.repairReserve { a with
          trans := { s.trans with spares := s.trans.spares.set r .retired }
          store := { s.store with dirty := true }
          rpr := { s.rpr with active := some { ac with spare := none } } } x p))
      ∧ (j.kind = .verify → s.AnswersWell j b →
        let u : Trans := { s.trans with
          remap := insertRemap { lba := x.lba, spare := r, origin := x.origin } s.trans.remap
          spares := (match s.trans.spareOf x.lba with
            | some q => s.trans.spares.set q .retired
            | none => s.trans.spares).set r .mapped
          suspects := s.trans.suspects.filter (·.lba != x.lba) }
        answers { (Ev.notice { a with trans := u, store := { s.store with dirty := true } } (.remapped x.lba r x.origin)) with
          rpr := { s.rpr with active := some { ac with step := .commitWait, spare := none, covered := false } } }
        ∧ u.translate x.lba = s.trans.blocks + r ∧ (∀ m, m ≠ x.lba → u.translate m = s.trans.translate m)
        ∧ u.suspect x.lba = false))
  ∧ ∀ (e : Ev) (x : RepairEntry) (p : Place),
    (∀ r, r < e.trans.spares.length → e.trans.spares[r]? = some .free → (∀ k, k < r → e.trans.spares[k]? ≠ some .free) →
      let f : Ev := { e with trans := { e.trans with spares := e.trans.spares.set r .reserved } }
      let g : Ev :=
        if f.trans.armed = true ∧ f.trans.freeCount ≤ f.trans.spareLow then
          { (f.notice (.spareLow f.trans.freeCount)) with trans := { f.trans with armed := false } }
        else f
      e.repairReserve x p = { g with
        rpr := { e.rpr with active := some { step := .spareWrite, spare := some r, place := some p, covered := false } }
        media := { e.media with repairQ := e.media.repairQ ++
          [{ cls := .repair, owner := .repair, kind := .write, target := .pba (e.trans.blocks + r), place := some p
             attempts := 0, verifyDecision := none, phase := .write }] } })
    ∧ ((∀ y ∈ e.trans.spares, y ≠ .free) → x.kind = .remapWrite → e.repairReserve x p = e.remapNoSpare x)
    ∧ ((∀ y ∈ e.trans.spares, y ≠ .free) → x.kind = .relocate →
        e.repairReserve x p = e.relocationFailed x .noSpare)

/-- The ends of a repair. The head entry leaves the queue with the active-repair record in each (R147 to R149). A failed
relocation posts RELOCATE_FAILED and completes its RELOCATE command. A repair that has mapped its LBA makes the slot of a
REMAP_WRITE CLEAN, or FREE when it is superseded, completes its RELOCATE command GOOD and tells its WRITE, behind the FLUSH
commands that the slot has let complete. A REMAP_WRITE without a spare makes the slot FREE, with a suspect entry, when it has
a write-through tag; without one it makes it FREE when superseded, and PINNED with its notice otherwise; its RELOCATE command
completes NO_SPARE and its WRITE records WRITE_FAILED, ahead of the FLUSH commands of the event (R47, R138). The WRITE is the
one attached, or the one that a latch has left without its attachment (log 13: the model's reading). The first failure of a
WRITE is recorded, its port unbinds, its FILLING slot becomes FREE and its request leaves the allocator queue; it completes
when no block of it is owed (R67, R76). The keys order the completions of one event (RecordsTakeTheirPlaces; log 10). -/
def Obligations.RepairEnds : Prop :=
  (∀ (e : Ev) (x : RepairEntry),
    let owed : Option Tag := x.wtTag.or x.wtFormer
    let gone (f : Ev) : Ev := { f with rpr := { f.rpr with queue := f.rpr.queue.tail, active := none, buf := [] } }
    let informs (k : Nat) (st : Status) (f : Ev) : Ev :=
      match x.relTag with
      | some t => f.completeAfter k t st (f.cmd.tag t).lba
      | none => f
    let counts (k : Nat) (f : Ev) : Ev := match owed with | some t => f.writeEnded k t | none => f
    let fails (f : Ev) : Ev := match owed with | some t => f.writeFailed 0 t .writeFailed x.lba | none => f
    let flushes (f : Ev) : Nat :=
      ((f.buf.flush.filter (·.slots.isEmpty)).map (fun g => 2 * f.order0.idxOf g.tag + 1)).foldl max 0
    let told : Nat := ((x.relTag.toList ++ owed.toList).map (fun t => 2 * e.order0.idxOf t + 1)).foldl max 0
    (e.relocationFailed x .noSpare = informs 0 .noSpare (gone (e.notice (.relocateFailed x.lba .noSpare))))
    ∧ (e.relocationFailed x .rereadFailed = informs 0 .rereadFailed (gone (e.notice (.relocateFailed x.lba .rereadFailed))))
    ∧ (x.kind = .relocate → e.repairMapped x = counts (flushes e) (informs (flushes e) .good (gone e)))
    ∧ (∀ i, x.kind = .remapWrite → x.slot = some i →
      let y := e.buf.slot i
      let clean : Ev := e.setSlot i (if y.superseded then Slot.empty else { y with st := .clean, owner := none })
      let freed : Ev := e.setSlot i Slot.empty
      let pinned : Ev := (e.setSlot i { y with st := .pinned, owner := none }).notice (.pinned x.lba)
      let ends (f : Ev) : Ev := { fails (informs 0 .noSpare (gone f)) with flushKey := max e.flushKey told }
      e.repairMapped x = counts (flushes clean) (informs (flushes clean) .good (gone clean))
      ∧ (x.wtTag = none → y.superseded = true → e.remapNoSpare x = ends freed)
      ∧ (x.wtTag = none → y.superseded = false → e.remapNoSpare x = ends pinned)
      ∧ (x.wtTag ≠ none → e.remapNoSpare x = ends (freed.suspectAdd x.lba .writeFailed))))
  ∧ (∀ (e : Ev) (key : Nat) (t : Tag) (st : Status) (n : Lba), t < e.cmd.tags.length →
    let r := e.cmd.tag t
    let f := (e.setTag t { r with failure := some (st, n) }).stopFilling t
    (r.st = .active → r.failure = none →
      e.writeFailed key t st n = if f.owedBlocks t = 0 then f.completeAfter key t st n else f)
    ∧ (∀ st0 m, r.st = .active → r.failure = some (st0, m) →
      e.writeFailed key t st n = if e.owedBlocks t = 0 then e.completeAfter key t st0 m else e)
    ∧ (r.st = .aborting →
      e.writeFailed key t st n = if e.owedBlocks t = 0 then e.completeAfter key t .aborted r.lba else e)
    ∧ (r.st ≠ .active → r.st ≠ .aborting → e.writeFailed key t st n = e))
  ∧ ∀ (e : Ev) (t : Tag),
    let f := e.stopFilling t
    let freed (p : Port) : Port := if p.bound.any (·.tag == t) then { p with bound := none } else p
    let filling (x : Slot) : Bool := x.st == .filling && x.owner == some (.tag t)
    f.ports = { e.ports with p0 := freed e.ports.p0, p1 := freed e.ports.p1 }
      ∧ f.buf.allocQ = e.buf.allocQ.filter (·.tag != t)
      ∧ (∀ i, f.buf.slot i = if filling (e.buf.slot i) then Slot.empty else e.buf.slot i)
      ∧ f.cmd = e.cmd ∧ f.media = e.media ∧ f.rpr = e.rpr ∧ f.trans = e.trans ∧ f.store = e.store ∧ f.rep = e.rep
      ∧ f.gate = e.gate ∧ f.patrol = e.patrol ∧ f.bus = e.bus ∧ f.posted = e.posted

/-- The answers of a commit's WRITEs (R171 to R173): a GOOD one below block 7 makes the WRITE of the next block; that of block
7 makes the target VALID with the commit's generation, clears TABLE_AT_RISK and posts TABLE_COMMITTED; a WRITE_FAULT makes the
target INVALID, sets TABLE_DIRTY and TABLE_AT_RISK, posts TABLE_COMMIT_FAILED and starts the retry timer. In both ends a repair
in COMMIT_WAIT whose update stands in the snapshot ends (R146; log 31). At the generation limit TABLE_AT_RISK is set, and a
repair in COMMIT_WAIT is released when no commit runs (R146, R174). -/
def Obligations.CommitAnswersAreTaken : Prop :=
  (∀ (o : Outstanding) (j : Job) (c : Commit) (b : Body) (s : State), s.Awaits o j → j.owner = .store →
    j.kind = .write → j.phase = .write → s.store.load = none → s.store.commit = some c →
    let answers (e : Ev) : Prop := exec (.responseFrame { seq := o.seq, body := b }) s = .next e.close
    let a := s.answerTaken
    (b = .goodWrite → c.block < 7 → answers { a with
      store := { s.store with commit := some { c with block := c.block + 1 } }
      media := { a.media with tableQ := s.media.tableQ ++
        [{ cls := .table, owner := .store, kind := .write
           target := .pba (copyBlock s.media.capacity c.target (c.block + 1)), place := some (.image (c.block + 1))
           attempts := 0, verifyDecision := none, phase := .write }] } })
    ∧ (b = .goodWrite → 7 ≤ c.block →
      answers ((Ev.notice { a with store := { s.store.setCopy c.target (.valid c.gen) with
        commit := none, atRisk := false } } (.tableCommitted c.gen c.target)).endCommitWait (·.covered)))
    ∧ (b = .writeFault →
      answers ((Ev.notice { a with store := { s.store.setCopy c.target .invalid with
        commit := none, dirty := true, atRisk := true, retryTimer := true } }
        (.tableCommitFailed c.target)).endCommitWait (·.covered))))
  ∧ (∀ (e : Ev) (w : ActiveRepair → Bool),
    (∀ x l a, e.rpr.queue = x :: l → e.rpr.active = some a → a.step = .commitWait → w a = true →
      e.endCommitWait w = e.repairMapped x)
    ∧ ((e.rpr.queue = [] ∨ e.rpr.active = none ∨ ∃ a, e.rpr.active = some a ∧ (a.step ≠ .commitWait ∨ w a = false)) →
      e.endCommitWait w = e))
  ∧ ∀ e : Ev, e.store.dirty = true → 0xFFFFFFFF ≤ e.store.newestGen →
    (e.store.atRisk = false → e.genLimit? = some { e with store := { e.store with atRisk := true } })
    ∧ (∀ x l a, e.store.atRisk = true → e.store.commit = none → e.rpr.queue = x :: l → e.rpr.active = some a →
      a.step = .commitWait → e.genLimit? = some (e.repairMapped x))

/-- The answers of a PREPARE's WRITEs (R180): a GOOD one below block 7 makes the WRITE of the next block; the last one, or a
WRITE_FAULT, ends the copy. After copy A, VALID with generation 1 or INVALID, copy B is written with generation 2. After copy
B, VALID with generation 2 or INVALID, the PREPARE ends as Table 9-3 gives: with a copy VALID the run state is READY,
TABLE_DIRTY and TABLE_AT_RISK are set unless both are, and the SPARE_LOW test is made (R11); with none, S and L are 0, the spare
records are gone (R26) and the run state is UNPREPARED. During a quiesce these run states are the return state, and all else is
the same (R181). An ACTIVE PREPARE completes, GOOD when both copies
are VALID and TABLE_WRITE_FAILED otherwise. -/
def Obligations.PrepareAnswersAreTaken : Prop :=
  (∀ (o : Outstanding) (j : Job) (q : Prep) (b : Body) (s : State), s.Awaits o j → j.owner = .store →
    j.kind = .write → j.phase = .write → s.store.load = none → s.store.commit = none → s.store.prep = some q →
    let answers (e : Ev) : Prop := exec (.responseFrame { seq := o.seq, body := b }) s = .next e.close
    let a := s.answerTaken
    let write (c : Copy) (k : Nat) : Job :=
      { cls := .table, owner := .store, kind := .write, target := .pba (copyBlock s.media.capacity c k)
        place := some (.image k), attempts := 0, verifyDecision := none, phase := .write }
    (b = .goodWrite → q.block < 7 → answers { a with
      store := { s.store with prep := some { q with block := q.block + 1 } }
      media := { a.media with tableQ := s.media.tableQ ++ [write q.copy (q.block + 1)] } })
    ∧ (∀ ok : Bool, ((ok = true ∧ b = .goodWrite ∧ 7 ≤ q.block) ∨ (ok = false ∧ b = .writeFault)) →
      (q.copy = .a → answers { a with
        store := { s.store with
          copyA := if ok then .valid 1 else .invalid
          copyB := .inWrite
          staging := imageBlocks (s.trans.image s.media.capacity 2)
          prep := some { copy := .b, block := 0, aValid := ok } }
        media := { a.media with tableQ := s.media.tableQ ++ [write .b 0] } })
      ∧ (q.copy = .b → answers ((Ev.prepareEnds { a with store := { s.store with
          copyB := if ok then .valid 2 else .invalid } } q.aValid ok).prepareCompletes
            (if q.aValid && ok then .good else .tableWriteFailed)))))
  ∧ (∀ (e : Ev) (x y : Bool),
    let runs (r : RunState) : Store := if e.store.run = .quiesce then { e.store with ret := some r } else { e.store with run := r }
    ((x = true ∨ y = true) →
      let f : Ev := { e with store := { runs .ready with prep := none, dirty := !(x && y), atRisk := !(x && y) } }
      e.prepareEnds x y =
        if f.trans.freeCount ≤ f.trans.spareLow then
          { (f.notice (.spareLow f.trans.freeCount)) with trans := { f.trans with armed := false } }
        else { f with trans := { f.trans with armed := true } })
    ∧ (x = false → y = false → e.prepareEnds x y = { e with
        trans := { e.trans with spareCount := 0, blocks := 0, remap := [], suspects := [], spares := [] }
        store := { runs .unprepared with prep := none, dirty := false, atRisk := false } }))
  ∧ ∀ (e : Ev) (t : Tag) (st : Status), t < e.cmd.tags.length → (e.cmd.tag t).op = some .prepare →
    (e.cmd.tag t).st = .active →
    (∀ u, u ≠ t → ¬ ((e.cmd.tag u).op = some .prepare ∧ (e.cmd.tag u).st = .active)) →
    e.prepareCompletes st = e.complete t st 0

/-- The start-up load (R177, R178). A GOOD block below 7 goes to the staging image and the READ of the next is made; after
block 7, or at a final UNRECOVERED, which leaves no image, the copy is tested: after copy A its valid image is the candidate
and copy B is read, and after copy B the load decides as Table 9-2 gives. The blocks read are a valid image when they are the
eight blocks of one image that passes its tests 4 to 8 (R167), for this unit's P; an image that fails only for its P is a size
mismatch. That blocks pass the check code when they are the eight content blocks of one image, and words never do, is the model's
choice (log 7). -/
def Obligations.LoadReadsAndDecides : Prop :=
  (∀ (o : Outstanding) (j : Job) (q : Load) (b : Body) (s : State), s.Awaits o j → j.owner = .store →
    s.store.load = some q →
    let answers (e : Ev) : Prop := exec (.responseFrame { seq := o.seq, body := b }) s = .next e.close
    let a := s.answerTaken
    let read (c : Copy) (k : Nat) : Job :=
      { cls := .table, owner := .store, kind := .read, target := .pba (copyBlock s.media.capacity c k)
        place := some (.image k), attempts := 0, verifyDecision := none, phase := .write }
    let tested (l : List BlockData) (img : Option Image) : Prop :=
      let good := img.filter (·.p == s.media.capacity)
      let mismatch := q.mismatch || (img.isSome && good.isNone)
      (q.copy = .a → answers { a with
        store := { s.store with
          staging := [], load := some { copy := .b, block := 0, candidate := good, mismatch := mismatch } }
        media := { a.media with tableQ := s.media.tableQ ++ [read .b 0] } })
      ∧ (q.copy = .b → answers (Ev.loadDecides { a with store := { s.store with staging := l } } q.candidate good mismatch))
    (∀ level d, b = .goodRead level d → (s.AnswersWell j b ∨ s.AnswersWeak j b) →
      (q.block < 7 → answers { a with
        store := { s.store with staging := s.store.staging ++ [d], load := some { q with block := q.block + 1 } }
        media := { a.media with tableQ := s.media.tableQ ++ [read q.copy (q.block + 1)] } })
      ∧ (7 ≤ q.block → tested (s.store.staging ++ [d]) (readImage (s.store.staging ++ [d]))))
    ∧ (s.AnswersFailed j b → tested s.store.staging none))
  ∧ (∀ (l : List BlockData) (img : Image), readImage l = some img ↔
    (l = (List.range 8).map (BlockData.table img) ∧ 16 ≤ img.s ∧ img.s ≤ 256 ∧ img.l + img.s + 16 = img.p
      ∧ 1 ≤ img.gen ∧ img.gen ≤ 0xFFFFFFFF
      ∧ img.remap.length ≤ img.s ∧ img.remap.Pairwise (fun x y => x.lba < y.lba)
      ∧ (∀ x ∈ img.remap, x.lba < img.l ∧ x.spare < img.s) ∧ (img.remap.map (·.spare)).Nodup
      ∧ img.spares.length = img.s ∧ (∀ x ∈ img.remap, img.spares[x.spare]? = some .mapped)
      ∧ (∀ i, img.spares[i]? = some .mapped → ∃ x ∈ img.remap, x.spare = i) ∧ (∀ x ∈ img.spares, x ≠ .reserved)
      ∧ img.suspects.length ≤ 32 ∧ (∀ x ∈ img.suspects, x.lba < img.l) ∧ (img.suspects.map (·.lba)).Nodup))
  ∧ ∀ (e : Ev) (m : Bool),
    let takes (c : Copy) (img : Image) (v : Verdict) (stA stB : CopyStatus) (flags : Bool) : Ev :=
      (Ev.notice { e with
        trans := { e.trans with
          spareCount := img.s, blocks := img.l, remap := img.remap, spares := img.spares, suspects := img.suspects }
        store := { e.store with
          run := .ready, load := none, copyA := stA, copyB := stB, dirty := flags, atRisk := flags } }
        (.loadResult v c img.gen)).spareLowOnTables
    let takesNone (v : Verdict) : Ev :=
      Ev.notice { e with store := { e.store with
        run := .unprepared, load := none, copyA := .invalid, copyB := .invalid, dirty := false, atRisk := false } }
        (.loadResult v .a 0)
    (∀ x y : Image, x.gen < y.gen →
      e.loadDecides (some x) (some y) m = takes .b y .both (.valid x.gen) (.valid y.gen) false)
    ∧ (∀ x y : Image, y.gen < x.gen →
      e.loadDecides (some x) (some y) m = takes .a x .both (.valid x.gen) (.valid y.gen) false)
    ∧ (∀ x y : Image, x.gen = y.gen →
      e.loadDecides (some x) (some y) m = takes .a x .oneCopy (.valid x.gen) .invalid true)
    ∧ (∀ x : Image, e.loadDecides (some x) none m = takes .a x .oneCopy (.valid x.gen) .invalid true)
    ∧ (∀ y : Image, e.loadDecides none (some y) m = takes .b y .oneCopy .invalid (.valid y.gen) true)
    ∧ e.loadDecides none none true = takesNone .sizeMismatch
    ∧ e.loadDecides none none false = takesNone .none

/-! ## Trips, timers and the fault line -/

/-- What a trip input does, in the event it is taken in (R124): with the gate armed and OPEN the counter rises by 1, and
the gate latches in MODE LATCHED or at TRIP_LIMIT, and holds otherwise; in any other case nothing changes. -/
def TripsTo (g : Gate) (run : RunState) : Gate :=
  if run.armed ∧ g.st = .opened then
    if g.mode = .latched ∨ g.tripLimit ≤ g.trips + 1 then
      { g with trips := g.trips + 1, st := .latched, holdTimer := none }
    else { g with trips := g.trips + 1, st := .hold, holdTimer := some g.holdCfg }
  else g

/-- A trip up to what MODE and TRIP_LIMIT decide (R124): the op is abandoned, the counter rises by 1 and TRIP is posted. -/
def tripTaken (e : Ev) (c : TripCause) : Ev :=
  let a := e.abandonOp
  Ev.notice { a with gate := { a.gate with trips := a.gate.trips + 1 } } (.trip c)

/-- A trip that does not latch: the gate enters HOLD and the hold timer starts (R124, R126). -/
def tripHolds (e : Ev) (c : TripCause) : Ev :=
  let n := tripTaken e c
  { n with gate := { n.gate with st := .hold, holdTimer := some n.gate.holdCfg } }

/-- A trip of this gate latches (R124, R125). -/
def LatchesNext (g : Gate) : Prop := g.mode = .latched ∨ g.tripLimit ≤ g.trips + 1

/-- The expiry of the running op timer is a trip input TIMEOUT, and a matched UNIT_FAULT of a job's op is a trip input (R102,
R112, R123). A trip that does not latch abandons the op, posts TRIP with its cause and puts the gate in HOLD, in full (R124);
one that latches is the statement LatchFailsHostJobs. An input that finds the gate not armed or not OPEN changes nothing, but
that the answered op is abandoned. Outside QUIESCE the gate stands as R124 says at the end of the event. The abandoned op's job
returns to the head of its list with its attempts kept, or goes when it has no owner left (R111). That the expiry of a stopped
timer does nothing is no rule of the spec but the model's choice (log 5). -/
def Obligations.TimeoutAndUnitFaultTrip : Prop :=
  ∀ s : State, s.bus.resetLow = false →
    let takes : Prop := s.store.run.armed = true ∧ s.gate.st = .opened
    let unitFault (c : Instr) : Prop := ∃ o j, s.media.link = some o ∧ o.job = some j
      ∧ c = .responseFrame { seq := o.seq, body := .unitFault }
    (s.media.opTimer = none → exec .opTimerExpiry s = .next s)
    ∧ (s.media.opTimer ≠ none → takes → ¬ LatchesNext s.gate →
        exec .opTimerExpiry s = .next (tripHolds s.begin .timeout).close)
    ∧ (s.media.opTimer ≠ none → ¬ takes → exec .opTimerExpiry s = .next s.begin.close)
    ∧ (∀ c, unitFault c → takes → ¬ LatchesNext s.gate → exec c s = .next (tripHolds s.begin .unitFault).close)
    ∧ (∀ c, unitFault c → ¬ takes → exec c s = .next s.begin.abandonOp.close)
    ∧ (∀ c, ((c = .opTimerExpiry ∧ s.media.opTimer ≠ none) ∨ (unitFault c ∧ s.gate.st = .opened)) →
        ∃ e : Ev, exec c s = .next e.close
          ∧ e.gate = TripsTo s.gate s.store.run
          ∧ (s.store.run ≠ .quiesce → e.close.gate = TripsTo s.gate s.store.run)
          ∧ (takes → e.media.link = none))
    ∧ ∀ o, s.media.link = some o →
      (∀ j, o.job = some j → o.orphan = none → s.begin.abandonOp = { s.begin with
        media := Media.requeue { s.media with link := none, opTimer := none } j })
      ∧ ((o.job = none ∨ o.orphan ≠ none) → s.begin.abandonOp = { s.begin with
        media := { s.media with link := none, opTimer := none } })

/-- The latch of the gate and its fail-fast (R124, R128, R129). A trip that latches, and a change of MODE that does, post TRIP
(a trip) and GATE_LATCHED; the HOST list is emptied; the slots of its loads become FREE. The completions join in acceptance
order: of an ACTIVE READ with a claim on a failing load, and of an ACTIVE VERIFY with a failing job, MEDIA_UNAVAILABLE with the
LBA of its lowest failing block; of an ACTIVE WRITE with a failing job, the failure it had recorded, or MEDIA_UNAVAILABLE with
the LBA of its lowest failing block; of an ABORTING WRITE, ABORTED, also where it has no failing job, which is the model's
reading (R76; log 34). Blocks done stay. Such a WRITE's write-through slots become
FREE, its attached repairs lose the tag and it is owed nothing more (R67, R76, R138); the ports of the failed commands unbind
(R94). No other command is failed. The repairs of an ACTIVE WRITE that is not failed lose the tag too (R138), and that the
WRITE is still owed their blocks is the model's reading (log 13). A repair in WAIT_WRITE then goes on (R139). -/
def Obligations.LatchFailsHostJobs : Prop :=
  (∀ s : State, s.bus.resetLow = false →
    let trips (e : Ev) (c : TripCause) : Ev := (tripTaken e c).latch
    (LatchesNext s.gate → s.gate.st = .opened → s.store.run.armed = true →
      (s.media.opTimer ≠ none → exec .opTimerExpiry s = .next (trips s.begin .timeout).close)
      ∧ (s.gate.line = false → s.gate.filterCfg = .off → exec .faultLineAssert s
          = .next (trips { s.begin with gate := { s.gate with line := true, filter := .asserted } } .faultLine).close)
      ∧ (∀ o j, s.media.link = some o → o.job = some j →
          exec (.responseFrame { seq := o.seq, body := .unitFault }) s = .next (trips s.begin .unitFault).close)
      ∧ (∀ w, s.gate.filter = .measuring w → exec .filterWidthExpiry s
          = .next (trips { s.begin with gate := { s.gate with filter := .asserted } } .faultLine).close))
    ∧ ∀ v : Word, s.gate.mode = .auto → v.getLsbD 0 = true → (s.gate.st = .hold ∨ s.gate.st = .waitClear) →
      exec (.gateCfgWrite v) s = .next (Ev.latch { s.begin with gate := s.gate.withCfg v }).close)
  ∧ ∀ e : Ev, e.posted = [] → e.order0 = e.cmd.order → e.cmd.order.Nodup →
    (∀ t ∈ e.cmd.order, (e.cmd.tag t).owed = true) →
    let jobs := e.media.hostQ
    let loads : List SlotIx := (jobs.filter (·.kind == .read)).filterMap Job.slot?
    let failing (t : Tag) (k : JobKind) : Option Lba :=
      ((jobs.filter (fun j => j.owner == .tag t && j.kind == k)).filterMap Job.lba?).min?
    let ends (t : Tag) : Option Report :=
      let r := e.cmd.tag t
      match r.op, r.st with
      | some .read, .active => ((r.claims.filter (fun c => loads.contains c.2)).map (·.1)).min?.map
          (fun k => .completion t .mediaUnavailable r.done (r.lba + k))
      | some .verify, .active => (failing t .verify).map (fun n => .completion t .mediaUnavailable r.done n)
      | some .write, .active => (failing t .write).map (fun n =>
          let p := r.failure.getD (.mediaUnavailable, n)
          .completion t p.1 r.done p.2)
      | some .write, .aborting => some (.completion t .aborted r.done r.lba)
      | _, _ => none
    let failed (t : Tag) : Bool := e.cmd.order.contains t && (ends t).isSome
    let through (t : Tag) : Bool := failed t && (e.cmd.tag t).op == some .write
    let goesOn (t : Tag) : Bool := e.cmd.order.contains t && (ends t).isNone && (e.cmd.tag t).op == some .write
      && (e.cmd.tag t).st == .active
    ∃ f : Ev, e.latch = f.repairWake
      ∧ f.gate = { e.gate with st := .latched, holdTimer := none }
      ∧ f.rep = (e.notice (.gateLatched e.gate.trips)).rep
      ∧ f.posted.map (·.report) = e.cmd.order.filterMap ends
      ∧ f.cmd.order = e.cmd.order.filter (fun t => (ends t).isNone)
      ∧ (∀ t, failed t = true → (f.cmd.tag t).st = .reported)
      ∧ (∀ t, failed t = false → (f.cmd.tag t).st = (e.cmd.tag t).st ∧ (f.cmd.tag t).done = (e.cmd.tag t).done
          ∧ (f.cmd.tag t).failure = (e.cmd.tag t).failure)
      ∧ (∀ i ∈ loads, f.buf.slot i = Slot.empty)
      ∧ (∀ t i, through t = true → (e.buf.slot i).st = .writing → (e.buf.slot i).owner = some (.tag t) →
          f.buf.slot i = Slot.empty)
      ∧ f.rpr = { e.rpr with queue := e.rpr.queue.map (fun x => { x with
          wtTag := if x.wtTag.any (fun t => through t || goesOn t) then none else x.wtTag
          wtFormer := if x.wtTag.any goesOn then x.wtTag
            else if x.wtFormer.any through then none else x.wtFormer }) }
      ∧ (∀ p b, (f.ports.get p).bound = some b → failed b.tag = true →
          (e.cmd.tag b.tag).op = some .write ∧ ((e.cmd.tag b.tag).st = .aborting ∨ (e.cmd.tag b.tag).failure ≠ none)
          ∨ (e.cmd.tag b.tag).op = some .verify)
      ∧ (e.media.link = none → f.media = { e.media with hostQ := [] })
      ∧ f.trans = e.trans ∧ f.store = e.store ∧ f.patrol = e.patrol ∧ f.bus = e.bus

/-- The fault line becomes asserted: the filter measures the width FILTER has now, or, with FILTER off, is ASSERTED at once
and gives its trip input; the release makes it IDLE, and takes WAIT_CLEAR back to HOLD with a fresh hold time; when the
width has passed a measuring filter is ASSERTED and gives its trip input (R122, R124, R126). A trip that does not latch is given
in full; one that latches is the statement LatchFailsHostJobs. The hold timer expires in HOLD:
the gate enters OPEN with the counter kept and GATE_REOPENED(AUTO) posted when the line is released, and WAIT_CLEAR with no
notice when it is asserted (R126). Outside QUIESCE the gate stands so at the end of the event. That an expiry of a filter that
is not measuring, or of a stopped hold timer, does nothing is no rule of the spec but the model's choice (log 5). -/
def Obligations.FaultLineAndHoldMoveTheGate : Prop :=
  ∀ s : State, s.bus.resetLow = false →
    (s.gate.line = false → s.gate.filterCfg ≠ .off →
      let e : Ev := { s.begin with gate := { s.gate with line := true, filter := .measuring s.gate.filterCfg } }
      exec .faultLineAssert s = .next e.close ∧ (s.store.run ≠ .quiesce → e.close.gate = e.gate))
    ∧ (∀ (c : Instr) (g : Gate),
        ((c = .faultLineAssert ∧ s.gate.line = false ∧ s.gate.filterCfg = .off
            ∧ g = { s.gate with line := true, filter := .asserted })
          ∨ (c = .filterWidthExpiry ∧ (∃ w, s.gate.filter = .measuring w) ∧ g = { s.gate with filter := .asserted })) →
        let e : Ev := { s.begin with gate := g }
        (s.store.run.armed = true → s.gate.st = .opened → ¬ LatchesNext s.gate →
            exec c s = .next (tripHolds e .faultLine).close)
        ∧ ((s.store.run.armed = false ∨ s.gate.st ≠ .opened) → exec c s = .next e.close))
    ∧ (s.gate.line = false → s.gate.filterCfg = .off → s.store.run ≠ .quiesce →
      ∃ t, exec .faultLineAssert s = .next t
        ∧ t.gate = TripsTo { s.gate with line := true, filter := .asserted } s.store.run)
    ∧ (s.gate.line = true → exec .faultLineRelease s = .next { s with
        gate := if s.gate.st = .waitClear then
            { s.gate with line := false, filter := .idle, st := .hold, holdTimer := some s.gate.holdCfg }
          else { s.gate with line := false, filter := .idle } })
    ∧ (∀ w, s.gate.filter = .measuring w → s.store.run ≠ .quiesce →
      ∃ t, exec .filterWidthExpiry s = .next t
        ∧ t.gate = TripsTo { s.gate with filter := .asserted } s.store.run)
    ∧ ((∀ w, s.gate.filter ≠ .measuring w) → exec .filterWidthExpiry s = .next s)
    ∧ (s.gate.st = .hold → s.gate.holdTimer ≠ none →
      let g : Gate := { s.gate with holdTimer := none, st := if s.gate.line then .waitClear else .opened }
      let e : Ev := if s.gate.line then { s.begin with gate := g }
        else Ev.notice { s.begin with gate := g } (.gateReopened .auto)
      exec .holdTimerExpiry s = .next e.close ∧ (s.store.run ≠ .quiesce → e.close.gate = g))
    ∧ (s.gate.holdTimer = none → exec .holdTimerExpiry s = .next s)

/-- The timers of STARTING, of commits and of patrol expire. In STARTING an IDENTIFY goes out with the next sequence number, in
place of any outstanding one, and the retry timer runs again (R101, R103). The commit retry timer stops, and a commit may
start in the same event (R170, R173). The interval timer of patrol ends and a new burst begins, or a SUSPENDED patrol resumes
with no eligible job of a higher class in READY: the block at POS is taken, held or not, and one that is not held is owed (R158,
R160, R161). With POS above END, as a late answer can leave it, that the pass has ended instead is no rule of the spec but the
model's choice (log 16). That the expiry of a stopped timer does nothing is the model's choice too (log 5). -/
def Obligations.TimersExpire : Prop :=
  ∀ s : State, s.bus.resetLow = false →
    let job : Job := { cls := .patrol, owner := .patrol, kind := .verify, target := .lba s.patrol.pos, place := none
                       attempts := 0, verifyDecision := none, phase := .write }
    (s.store.run = .starting → s.media.identTimer = true →
      exec .identifyRetryExpiry s = .next { s with
        media := { s.media with
          link := some { seq := s.media.seq, op := .identify, job := none, orphan := none }
          tx := some { seq := s.media.seq, op := .identify, pba := 0, data := none }
          seq := s.media.seq + 1
          identTimer := true } })
    ∧ (s.media.identTimer = false → exec .identifyRetryExpiry s = .next s)
    ∧ (s.store.retryTimer = true →
      exec .commitRetryExpiry s = .next (Ev.close { s.begin with store := { s.store with retryTimer := false } }))
    ∧ (s.store.retryTimer = false → exec .commitRetryExpiry s = .next s)
    ∧ (s.patrol.st = .interval → s.patrol.timer ≠ none → s.patrol.pos ≤ s.patrol.last →
      exec .patrolIntervalExpiry s = .next (Ev.close (Ev.patrolTake { s.begin with
        patrol := { s.patrol with burstLeft := s.patrol.burst, timer := none } })))
    ∧ (s.patrol.st = .suspended → s.store.run = .ready → s.higherWork = false → s.patrol.pos ≤ s.patrol.last →
      exec .patrolResume s = .next s.begin.patrolTake.close)
    ∧ (s.patrol.st = .interval → s.patrol.timer ≠ none → s.patrol.pos ≤ s.patrol.last → s.held s.patrol.pos = false →
      exec .patrolIntervalExpiry s = .next (Ev.close { s.begin with
        patrol := { s.patrol with burstLeft := s.patrol.burst, timer := none, st := .pending }
        media := { s.media with patrolQ := s.media.patrolQ ++ [job] } }))
    ∧ (s.patrol.st = .interval → s.patrol.timer ≠ none → s.patrol.last < s.patrol.pos →
      exec .patrolIntervalExpiry s = .next (Ev.close (Ev.patrolNext { s.begin with
        patrol := { s.patrol with burstLeft := s.patrol.burst, timer := none } })))
    ∧ (s.patrol.timer = none → exec .patrolIntervalExpiry s = .next s)
    ∧ (s.patrol.st = .suspended → s.store.run = .ready → s.higherWork = false → s.patrol.last < s.patrol.pos →
      exec .patrolResume s = .next s.begin.patrolNext.close)
    ∧ (s.patrol.st = .suspended → s.store.run = .ready → s.higherWork = false → s.patrol.pos ≤ s.patrol.last →
      s.held s.patrol.pos = false →
      exec .patrolResume s = .next (Ev.close { s.begin with
        patrol := { s.patrol with st := .pending }
        media := { s.media with patrolQ := s.media.patrolQ ++ [job] } }))

/-! ## Internal steps -/

/-- The arbiter chooses the first eligible job of the highest class that has one: TABLE, HOST, the destage job while it is
URGENT, REPAIR, the destage job, PATROL (R105, R106). It is URGENT while the DIRTY and WRITING slots are HIGH_WATER or more,
a FLUSH is ACTIVE, or the run state is QUIESCE (R44). A job is eligible when Table 5-4 allows its class in the run state and,
for a write job of an LBA, in either phase, when the repair queue holds fewer than 8 entries (R107). -/
def Obligations.ArbiterTakesTheHighestClass : Prop :=
  ∀ (j : Job) (s : State),
    let none (l : List Job) : Prop := ∀ x ∈ l, s.eligible x = false
    let m := s.media
    (FirstWith m.tableQ s.eligible j → s.choice = some j)
    ∧ (none m.tableQ → FirstWith m.hostQ s.eligible j → s.choice = some j)
    ∧ (none m.tableQ → none m.hostQ → s.urgent = true → FirstWith m.destageQ s.eligible j → s.choice = some j)
    ∧ (none m.tableQ → none m.hostQ → (s.urgent = false ∨ none m.destageQ) → FirstWith m.repairQ s.eligible j →
        s.choice = some j)
    ∧ (none m.tableQ → none m.hostQ → none m.repairQ → FirstWith m.destageQ s.eligible j → s.choice = some j)
    ∧ (none m.tableQ → none m.hostQ → none m.repairQ → none m.destageQ → FirstWith m.patrolQ s.eligible j →
        s.choice = some j)
    ∧ (none m.tableQ → none m.hostQ → none m.repairQ → none m.destageQ → none m.patrolQ → s.choice = Option.none)
    ∧ (s.urgent = true ↔ (s.buf.highWater ≤ s.buf.slots.countP (fun x => x.st == .dirty || x.st == .writing)
        ∨ (∃ r ∈ s.cmd.tags, r.op = some .flush ∧ r.st = .active) ∨ s.store.run = .quiesce))
    ∧ (s.eligible j = true ↔
        (match s.store.run with
          | .starting => False
          | .unitRejected => False
          | .loading => j.cls = .table
          | .unprepared => j.cls = .table
          | .ready => True
          | .quiesce => j.cls = .table ∨ j.cls = .destage ∨ j.cls = .repair ∨ (j.cls = .host ∧ j.owner = .staging))
        ∧ ((j.kind = .write ∧ (j.cls = .host ∨ j.cls = .destage)) → s.rpr.queue.length < 8))

/-- OP_ISSUE with the link idle and the gate OPEN: the job the arbiter chooses leaves its list, its op goes out with the
counter's number and the translated PBA, the counter rises, and the op timer starts with OP_TIMEOUT (R99, R101, R102,
R106, R108). The PBA of an LBA is L plus the spare of its remap entry, or the LBA itself without one (R2). At the first issue
of a write job of an LBA its verify decision is whether the LBA is on the suspect list (R17). A WRITE's data is that of its
data place (R99). -/
def Obligations.OpIssueSendsTheChosenJob : Prop :=
  (∀ (j : Job) (s : State), s.bus.resetLow = false → s.media.link = none → s.gate.st = .opened → s.choice = some j →
    let k := s.decided j
    exec .opIssue s = .next (Ev.close { s.begin with
      media := { s.media.takeJob j with
        link := some { seq := s.media.seq, op := k.opOf, job := some k, orphan := none }
        tx := some { seq := s.media.seq, op := k.opOf, pba := s.pbaOf k
                     data := if k.opOf = .write then some (s.placeData k) else none }
        seq := s.media.seq + 1
        opTimer := some (s.media.opTimeout * 10) }
      patrol := { s.patrol with
        st := if j.owner = .patrol ∧ s.patrol.st = .pending then .running else s.patrol.st } }))
  ∧ ∀ (j : Job) (s : State),
    (∀ n, j.target = .lba n → (∀ x ∈ s.trans.remap, x.lba ≠ n) → s.pbaOf j = n)
    ∧ (∀ n x, j.target = .lba n → FirstWith s.trans.remap (·.lba == n) x → s.pbaOf j = s.trans.blocks + x.spare)
    ∧ (∀ p, j.target = .pba p → s.pbaOf j = p)
    ∧ (∀ n, j.target = .lba n → j.kind = .write → (j.cls = .host ∨ j.cls = .destage) → j.verifyDecision = none →
        ∃ d, s.decided j = { j with verifyDecision := some d } ∧ (d = true ↔ ∃ x ∈ s.trans.suspects, x.lba = n))
    ∧ (((∃ p, j.target = .pba p) ∨ j.kind ≠ .write ∨ (j.cls ≠ .host ∧ j.cls ≠ .destage) ∨ j.verifyDecision ≠ none) →
        s.decided j = j)
    ∧ (j.kind = .read → j.opOf = .read) ∧ (j.kind = .verify → j.opOf = .verify)
    ∧ (j.kind = .write → j.phase = .write → j.opOf = .write) ∧ (j.kind = .write → j.phase = .verify → j.opOf = .verify)
    ∧ (∀ i, j.place = some (.slot i) → s.placeData j = .words (s.buf.slot i).data)
    ∧ (j.place = some .repairBuf → s.placeData j = .words s.rpr.buf)
    ∧ (∀ k d, j.place = some (.image k) → s.store.staging[k]? = some d → s.placeData j = d)

/-- COMMIT_START under the conditions of R170: the target copy is IN_WRITE, the snapshot with the next generation stands in
the staging image, TABLE_DIRTY is 0, a repair in COMMIT_WAIT is covered (log 31: the model's
reading), and the WRITE of block 0 joins the TABLE list. The newest copy is the VALID one of the higher generation, copy A
where they are the same; the target is the other one, copy A when neither is VALID, and the newest generation is then 0
(R168). The image holds P, S, L, the generation and the tables, with a RESERVED spare saved as FREE (R12, R166, R170). -/
def Obligations.CommitStartTakesASnapshot : Prop :=
  (∀ s : State, s.bus.resetLow = false → s.store.dirty = true → s.store.commit = none → s.store.prep = none →
    (s.store.run = .ready ∨ (s.store.run = .quiesce ∧ s.store.discarded = false)) → s.store.retryTimer = false →
    s.store.newestGen < 0xFFFFFFFF →
    exec .commitStart s = .next (Ev.close { s.begin with
      store := { s.store.setCopy s.store.target .inWrite with
        staging := imageBlocks (s.trans.image s.media.capacity (s.store.newestGen + 1))
        dirty := false
        commit := some { target := s.store.target, gen := s.store.newestGen + 1, block := 0 } }
      rpr := { s.rpr with
        active := s.rpr.active.map (fun a => if a.step = .commitWait then { a with covered := true } else a) }
      media := { s.media with tableQ := s.media.tableQ ++
        [{ cls := .table, owner := .store, kind := .write, target := .pba (copyBlock s.media.capacity s.store.target 0)
           place := some (.image 0), attempts := 0, verifyDecision := none, phase := .write }] } }))
  ∧ (∀ st : Store,
    let valid (c : CopyStatus) : Prop := ∃ g, c = .valid g
    let is (c : Copy) (g : Nat) : Prop := st.target = c ∧ st.newestGen = g
    (∀ x y, st.copyA = .valid x → st.copyB = .valid y → x < y → is .a y)
    ∧ (∀ x y, st.copyA = .valid x → st.copyB = .valid y → y ≤ x → is .b x)
    ∧ (∀ x, st.copyA = .valid x → ¬ valid st.copyB → is .b x)
    ∧ (∀ y, ¬ valid st.copyA → st.copyB = .valid y → is .a y)
    ∧ (¬ valid st.copyA → ¬ valid st.copyB → is .a 0))
  ∧ (∀ (t : Trans) (p g : Nat), t.image p g = {
      p := p, s := t.spareCount, l := t.blocks, gen := g, remap := t.remap
      spares := t.spares.map (fun x => if x = .reserved then .free else x)
      suspects := t.suspects })
  ∧ (∀ img : Image, imageBlocks img = (List.range 8).map (BlockData.table img))
  ∧ ∀ (p k : Nat), copyBlock p .a k = p - 16 + k ∧ copyBlock p .b k = p - 8 + k

/-- QUIESCE_END under the conditions of R182: the report queue is emptied, REPORTED tags become FREE, SUBMIT is NONE, the
sticky fields and CONTROL return to 0, and the run state becomes the return state. -/
def Obligations.QuiesceEndReturns : Prop :=
  ∀ (r : RunState) (s : State), s.bus.resetLow = false → s.store.run = .quiesce → s.store.ret = some r →
    (∀ x ∈ s.buf.slots, x.st ≠ .dirty ∧ x.st ≠ .writing ∧ x.st ≠ .loading) → s.rpr.queue = [] →
    s.store.commit = none → s.store.prep = none →
    (s.store.dirty = false ∨ s.store.retryTimer = true ∨ 0xFFFFFFFF ≤ s.store.newestGen ∨ s.store.discarded = true) →
    exec .quiesceEnd s = .next (Ev.close { s.begin with
      rep := { recs := [], noticeLost := false }
      cmd := { s.cmd with
        tags := s.cmd.tags.map (fun x => if x.st = .reported then TagRec.empty else x)
        submit := .none
        abortRefused := false }
      gate := { s.gate with refused := false }
      patrol := { s.patrol with badWindow := false }
      ports := { s.ports with
        p0 := { s.ports.p0 with empty := false }
        p1 := { s.ports.p1 with empty := false } }
      bus := { s.bus with stageEn := false, patrolCont := false, reportIe := false, portIe := false, discard := false }
      store := { s.store with run := r, ret := none, discarded := false } })

/-- SLOT_ALLOCATION serves the head request with the lowest-numbered FREE slot, or the head of the clean list (R33): a FILL
request gets a FILLING slot of its tag; a LOAD request whose LBA has a current slot claims it, and else its slot is
LOADING, claimed, with a READ job in the HOST list, or, under a LATCHED gate, the command fails MEDIA_UNAVAILABLE (R130).
PORT_BINDING gives the oldest waiting command that can take a port that port, at block 0 and word 0: the command is
ACTIVE, and a WRITE makes the FILL request of its first block (R86, R87). A command takes the port it names, or for ANY the
lower-numbered one, when it is not bound. The lookups of a READ cover the block at its port and the two after it, one at a
time, while it has no request in the queue (R92); where lookups of both ports are due, P0's READ makes its own first, which is no rule
of the spec but the model's choice (log 2). A block with a current slot claims it, and one without makes a LOAD request (R40). A claim adds 1 to the slot's count and is kept in the command's record (R31). The current slot of an LBA
is the one that carries it in LOADING, CLEAN, DIRTY or PINNED, or in WRITING and not superseded (R28). -/
def Obligations.AllocationAndBindingServeTheOldest : Prop :=
  (∀ (q : AllocReq) (rest : List AllocReq) (i : SlotIx) (s : State), s.bus.resetLow = false →
    s.buf.allocQ = q :: rest →
    ((i < s.buf.slots.length ∧ (s.buf.slot i).st = .free ∧ ∀ k, k < i → (s.buf.slot k).st ≠ .free)
      ∨ ((∀ x ∈ s.buf.slots, x.st ≠ .free) ∧ s.buf.clean.head? = some i)) →
    let e : Ev := { s.begin with buf := { s.buf with allocQ := rest } }
    (q.kind = .fill →
      exec .slotAllocation s = .next (Ev.close ((e.freeSlot i).setSlot i
        { st := .filling, lba := some q.lba, superseded := false, claims := 0, owner := some (.tag q.tag), data := [] })))
    ∧ (∀ k, q.kind = .load → s.buf.lookup q.lba = some k →
      exec .slotAllocation s = .next (e.claim q.tag q.block k).close)
    ∧ (q.kind = .load → s.buf.lookup q.lba = none → s.gate.st ≠ .latched →
      exec .slotAllocation s = .next (Ev.close ((((e.freeSlot i).setSlot i
        { st := .loading, lba := some q.lba, superseded := false, claims := 0, owner := some (.tag q.tag)
          data := [] }).claim q.tag q.block i).addJob
        { cls := .host, owner := .tag q.tag, kind := .read, target := .lba q.lba, place := some (.slot i)
          attempts := 0, verifyDecision := none, phase := .write })))
    ∧ (q.kind = .load → s.buf.lookup q.lba = none → s.gate.st = .latched →
      exec .slotAllocation s = .next ((e.freeSlot i).readFails q.tag .mediaUnavailable q.lba).close))
  ∧ (∀ (t : Tag) (i : PortId) (s : State), s.bus.resetLow = false →
    FirstWith s.ports.wait (fun u => (s.ports.takes (s.cmd.tag u).portSel).isSome) t →
    s.ports.takes (s.cmd.tag t).portSel = some i → (s.cmd.tag t).st = .queued →
    let wr : Bool := (s.cmd.tag t).op == some .write
    exec .portBinding s = .next (Ev.close { s.begin with
      cmd := { s.cmd with tags := s.cmd.tags.set t { s.cmd.tag t with st := .active } }
      ports := { s.ports.set i { s.ports.get i with
          bound := some { tag := t, dir := if wr then .write else .read, block := 0, word := 0 } } with
        wait := s.ports.wait.filter (· != t) }
      buf := { s.buf with allocQ := if wr then
          s.buf.allocQ ++ [{ tag := t, kind := .fill, lba := (s.cmd.tag t).lba, block := 0 }]
        else s.buf.allocQ } }))
  ∧ (∀ p : Ports,
    p.takes .p0 = (if p.p0.bound = none then some .p0 else none)
    ∧ p.takes .p1 = (if p.p1.bound = none then some .p1 else none)
    ∧ p.takes .any = (if p.p0.bound = none then some .p0 else if p.p1.bound = none then some .p1 else none))
  ∧ (∀ (e : Ev) (t : Tag) (k : Nat) (i : SlotIx),
    let r := e.cmd.tag t
    let n := r.lba + k
    let looked := e.setTag t { r with looked := k + 1 }
    e.claim t k i = { e with
      buf := e.buf.setSlot i { e.buf.slot i with claims := (e.buf.slot i).claims + 1 }
      cmd := { e.cmd with tags := e.cmd.tags.set t { r with claims := r.claims ++ [(k, i)] } } }
    ∧ (e.buf.lookup n = some i → e.lookupBlock t k = looked.claim t k i)
    ∧ (e.buf.lookup n = none → e.lookupBlock t k = { looked with
        buf := { e.buf with allocQ := e.buf.allocQ ++ [{ tag := t, kind := .load, lba := n, block := k }] } })
    ∧ (e.lookupDue e.ports.p0 = some t → e.readLookup? = some (e.lookupBlock t r.looked))
    ∧ (e.lookupDue e.ports.p0 = none → e.lookupDue e.ports.p1 = some t → e.readLookup? = some (e.lookupBlock t r.looked))
    ∧ (e.lookupDue e.ports.p0 = none → e.lookupDue e.ports.p1 = none → e.readLookup? = none))
  ∧ (∀ (s : State) (p : Port) (t : Tag), s.lookupDue p = some t ↔
    ∃ b, p.bound = some b ∧ b.tag = t ∧ b.dir = .read ∧ (s.cmd.tag t).looked < (s.cmd.tag t).count
      ∧ (s.cmd.tag t).looked ≤ b.block + 2 ∧ ∀ q ∈ s.buf.allocQ, q.tag ≠ t)
  ∧ ∀ (b : Buf) (n : Lba),
    let current (x : Slot) : Prop := x.lba = some n
      ∧ (x.st = .loading ∨ x.st = .clean ∨ x.st = .dirty ∨ x.st = .pinned ∨ (x.st = .writing ∧ x.superseded = false))
    (∀ i, b.lookup n = some i → i < b.slots.length ∧ current (b.slot i))
    ∧ (b.lookup n = none ↔ ∀ x ∈ b.slots, ¬ current x)

/-- DESTAGE_OFFER: with no destage job and a place in the repair queue, the oldest DIRTY slot whose LBA is not held and has
no write job becomes WRITING, and its write job joins the destage list (R43). WRITE_THROUGH_JOB_CREATE: the lowest-numbered
write-through slot whose job can be created gets it in the HOST list; under a LATCHED gate the command fails as a latch fails
it: its write-through slots are FREE, its attached repairs lose the tag, and it completes in the event, with the failure it
had recorded or MEDIA_UNAVAILABLE, or ABORTED (R38, R51, R129, R130, R138; log 2 for the slot order). A slot can be offered
when its LBA has no entry in the repair queue and no write job, waiting or on the link with its owner; a write-through job can
be created for a WRITING slot that a command owns under the same two conditions, while the slot has no job (R20, R38, R43). -/
def Obligations.WriteJobsAreCreated : Prop :=
  (∀ (i : SlotIx) (n : Lba) (s : State), s.bus.resetLow = false → s.media.destageQ = [] →
    (∀ j, s.media.linkJob = some j → j.cls ≠ .destage) → s.rpr.queue.length < 8 →
    FirstWith s.buf.destage s.offerable i → (s.buf.slot i).lba = some n →
    exec .destageOffer s = .next (Ev.close { s.begin with
      buf := s.buf.setSlot i { s.buf.slot i with st := .writing, owner := none, superseded := false }
      media := { s.media with destageQ :=
        [{ cls := .destage, owner := .staging, kind := .write, target := .lba n, place := some (.slot i)
           attempts := 0, verifyDecision := none, phase := .write }] } }))
  ∧ (∀ (i : SlotIx) (s : State),
    let stands (j : Job) : Prop := j ∈ s.media.hostQ ∨ j ∈ s.media.destageQ
      ∨ ∃ o, s.media.link = some o ∧ o.orphan = none ∧ o.job = some j
    let clear (n : Lba) : Prop := (∀ x ∈ s.rpr.queue, x.lba ≠ n)
      ∧ ∀ j, stands j → j.kind = .write → j.target ≠ .lba n
    (s.offerable i = true ↔ ∃ n, (s.buf.slot i).lba = some n ∧ clear n)
    ∧ (s.wtReady i = true ↔ (s.buf.slot i).st = .writing ∧ (∃ t, (s.buf.slot i).owner = some (.tag t))
        ∧ (∃ n, (s.buf.slot i).lba = some n ∧ clear n) ∧ ∀ j, stands j → j.place ≠ some (.slot i)))
  ∧ ∀ (i : SlotIx) (t : Tag) (n : Lba) (s : State), s.bus.resetLow = false → i < s.buf.slots.length →
    s.wtReady i = true → (∀ k, k < i → s.wtReady k = false) → (s.buf.slot i).owner = some (.tag t) →
    (s.buf.slot i).lba = some n →
    (s.gate.st ≠ .latched →
      exec .writeThroughJobCreate s = .next (Ev.close { s.begin with
        media := { s.media with hostQ := s.media.hostQ ++
          [{ cls := .host, owner := .tag t, kind := .write, target := .lba n, place := some (.slot i)
             attempts := 0, verifyDecision := none, phase := .write }] } }))
    ∧ (s.gate.st = .latched → ((s.cmd.tag t).st = .active ∨ (s.cmd.tag t).st = .aborting) →
      ∃ e : Ev, exec .writeThroughJobCreate s = .next e.close
        ∧ (∀ k, (s.buf.slot k).st = .writing → (s.buf.slot k).owner = some (.tag t) → e.buf.slot k = Slot.empty)
        ∧ (∀ k, ((s.buf.slot k).owner ≠ some (.tag t) ∨ ((s.buf.slot k).st ≠ .writing ∧ (s.buf.slot k).st ≠ .filling)) →
            e.buf.slot k = s.buf.slot k)
        ∧ ((s.cmd.tag t).st = .active → (s.cmd.tag t).failure = none →
            ∀ p b, (e.ports.get p).bound = some b → b.tag ≠ t)
        ∧ e.rpr = { s.rpr with queue := s.rpr.queue.map (fun x => { x with
            wtTag := if x.wtTag = some t then none else x.wtTag
            wtFormer := if x.wtFormer = some t then none else x.wtFormer }) }
        ∧ (e.cmd.tag t).st = .reported ∧ e.cmd.order = s.cmd.order.filter (· != t)
        ∧ (∀ u, u ≠ t → e.cmd.tag u = s.cmd.tag u)
        ∧ e.posted.map (·.report) = [
            if (s.cmd.tag t).st = .aborting then .completion t .aborted (s.cmd.tag t).done (s.cmd.tag t).lba
            else match (s.cmd.tag t).failure with
              | some (st, m) => .completion t st (s.cmd.tag t).done m
              | none => .completion t .mediaUnavailable (s.cmd.tag t).done n]
        ∧ e.media = s.media ∧ e.trans = s.trans ∧ e.store = s.store ∧ e.gate = s.gate ∧ e.patrol = s.patrol
        ∧ e.rep = s.rep ∧ e.bus = s.bus)

/-- COMMAND_START sets the oldest startable command going (R63): a READ or WRITE joins the wait for a port; a FLUSH is
ACTIVE; a RELOCATE is ACTIVE and joins the admission wait; a CLEAR_SUSPECT completes GOOD with its entry removed and
TABLE_DIRTY set, or NOT_SUSPECT; a RELEASE_PINNED completes GOOD with its slot FREE, or NOT_PINNED; a VERIFY is ACTIVE and
reaches its first blocks; a PREPARE is ACTIVE and begins (R68 to R72). A command is startable when it is QUEUED, does not wait
for a port yet, and no earlier command of the order list holds it: one that shares an LBA with it, where one of the two is a
WRITE or a RELEASE_PINNED (R62, Table 3-1). That of several that leave their hold in one event the oldest is set going first is
no rule of the spec but the model's choice (log 2). -/
def Obligations.CommandStartSetsTheOldestGoing : Prop :=
  (∀ (t : Tag) (pre post : List Tag) (s : State), s.cmd.order = pre ++ t :: post → t ∉ pre →
    let single (r : TagRec) : Prop := r.op = some .relocate ∨ r.op = some .releasePinned
    let ranged (r : TagRec) : Prop := r.op = some .read ∨ r.op = some .write ∨ r.op = some .verify ∨ single r
    let past (r : TagRec) : Nat := if r.op = some .relocate ∨ r.op = some .releasePinned then r.lba + 1 else r.lba + r.count
    let writer (r : TagRec) : Prop := r.op = some .write ∨ r.op = some .releasePinned
    let holds (x r : TagRec) : Prop :=
      ranged x ∧ ranged r ∧ x.lba < past r ∧ r.lba < past x ∧ (writer x ∨ writer r)
    (s.startable t = true ↔ (s.cmd.tag t).st = .queued ∧ (s.cmd.tag t).op ≠ none ∧ t ∉ s.ports.wait
      ∧ ∀ u ∈ pre, ¬ holds (s.cmd.tag u) (s.cmd.tag t)))
  ∧ ∀ (t : Tag) (s : State), s.bus.resetLow = false → FirstWith s.cmd.order s.startable t →
    let r := s.cmd.tag t
    let a : Ev := { s.begin with cmd := { s.cmd with tags := s.cmd.tags.set t { r with st := .active } } }
    ((r.op = some .read ∨ r.op = some .write) →
      exec .commandStart s = .next (Ev.close { s.begin with
        ports := { s.ports with wait := s.cmd.order.filter (fun u => (t :: s.ports.wait).contains u) } }))
    ∧ (r.op = some .verify → exec .commandStart s = .next (a.verifyAdvance t).close)
    ∧ (r.op = some .flush → exec .commandStart s = .next a.close)
    ∧ (r.op = some .relocate → exec .commandStart s = .next (Ev.close { a with
        rpr := { s.rpr with wait := s.cmd.order.filter (fun u => (t :: s.rpr.wait).contains u) } }))
    ∧ (r.op = some .clearSuspect → s.trans.suspect r.lba = true →
        exec .commandStart s = .next (Ev.close (Ev.complete { a with
          trans := s.trans.withoutSuspect r.lba, store := { s.store with dirty := true } } t .good r.lba)))
    ∧ (r.op = some .clearSuspect → s.trans.suspect r.lba = false →
        exec .commandStart s = .next (a.complete t .notSuspect r.lba).close)
    ∧ (∀ i, r.op = some .releasePinned → s.buf.lookup r.lba = some i → (s.buf.slot i).st = .pinned →
        exec .commandStart s = .next ((a.freeSlot i).complete t .good r.lba).close)
    ∧ (r.op = some .releasePinned → (∀ i, s.buf.lookup r.lba = some i → (s.buf.slot i).st ≠ .pinned) →
        exec .commandStart s = .next (a.complete t .notPinned r.lba).close)
    ∧ (r.op = some .prepare → exec .commandStart s = .next (a.prepareBegin r.count).close)

/-- The beginning of a PREPARE: S and L are set, the spares are all FREE, the remap and suspect lists empty and the SPARE_LOW
arming clear (R26); both copies are of no use but copy A, which is written first with generation 1, TABLE_DIRTY and
TABLE_AT_RISK are 0 and the retry timer is stopped (R179, R180); the CLEAN slots become FREE (R179); patrol is OFF with POS
kept, its waiting job is gone, and a patrol VERIFY on the link is applied to nothing (R164; log 26: the model's reading for one
that a quiesce has left there). Nothing else changes. -/
def Obligations.PrepareBeginsWithCopyA : Prop :=
  ∀ (e : Ev) (n : Nat), e.prepareBegin n = { e with
    trans := { e.trans with
      spareCount := n, blocks := e.media.capacity - n - 16, remap := [], suspects := []
      spares := List.replicate n .free, armed := false }
    store := { e.store with
      copyA := .inWrite, copyB := .invalid, dirty := false, atRisk := false, retryTimer := false
      prep := some { copy := .a, block := 0, aValid := false }
      staging := (List.range 8).map (BlockData.table { p := e.media.capacity, s := n, l := e.media.capacity - n - 16, gen := 1
                                                       remap := [], spares := List.replicate n .free, suspects := [] }) }
    buf := { e.buf with
      slots := e.buf.slots.map (fun x => if x.st = .clean then Slot.empty else x)
      clean := e.buf.clean.filter (fun i => !((e.buf.slot i).st == .clean && (e.buf.slot i).claims == 0)) }
    patrol := { e.patrol with st := .off, burstLeft := 0, finishing := false, restart := false, timer := none }
    media := { e.media with
      patrolQ := []
      link := e.media.link.map (fun o => if o.job.any (·.owner == .patrol) then { o with orphan := some .applyNothing } else o)
      tableQ := e.media.tableQ ++
        [{ cls := .table, owner := .store, kind := .write, target := .pba (copyBlock e.media.capacity .a 0)
           place := some (.image 0), attempts := 0, verifyDecision := none, phase := .write }] } }

/-- REPAIR_ACTIVATION takes the head entry when none is active (R134, R139, R140): it waits while a write job of its LBA
exists; else a REMAP_WRITE reserves a spare with its slot as data place, a RELOCATE of an LBA whose current slot holds data
copies its words and reserves a spare, and another RELOCATE creates its READ. A repair in WAIT_WRITE is taken in the same
way when no write job of its LBA exists any more. ADMISSION_WAIT_SERVE walks the wait from the oldest RELOCATE to the youngest
(R137): each attaches to an entry of its LBA that has no RELOCATE tag, or joins the tail of a queue that has no entry of its
LBA and at most 6 entries, or stays. -/
def Obligations.RepairQueueIsServed : Prop :=
  (∀ s : State, s.bus.resetLow = false →
    exec .repairActivation s = .next s.begin.repairActivate.close
    ∧ exec .admissionWaitServe s = .next s.begin.admissionWalk.close)
  ∧ (∀ (e : Ev) (x : RepairEntry) (l : List RepairEntry), e.rpr.queue = x :: l → e.rpr.active = none →
    let waiting : Ev := { e with
      rpr := { e.rpr with active := some { step := .waitWrite, spare := none, place := none, covered := false } } }
    (e.writeJobOf x.lba = true → e.repairActivate = waiting ∧ waiting.repairWake = waiting)
    ∧ (e.writeJobOf x.lba = false → waiting.repairWake = e.repairActivate)
    ∧ (∀ i, e.writeJobOf x.lba = false → x.kind = .remapWrite → x.slot = some i →
        e.repairActivate = waiting.repairReserve x (.slot i))
    ∧ (∀ i, e.writeJobOf x.lba = false → x.kind = .relocate → e.buf.lookup x.lba = some i →
        ((e.buf.slot i).st ≠ .loading ∨ (e.buf.slot i).data ≠ []) →
        e.repairActivate = Ev.repairReserve { waiting with rpr := { waiting.rpr with buf := (e.buf.slot i).data } }
          x .repairBuf)
    ∧ (e.writeJobOf x.lba = false → x.kind = .relocate →
        (∀ i, e.buf.lookup x.lba = some i → (e.buf.slot i).st = .loading ∧ (e.buf.slot i).data = []) →
        e.repairActivate = { e with
          rpr := { e.rpr with
            active := some { step := .read, spare := none, place := some .repairBuf, covered := false } }
          media := { e.media with repairQ := e.media.repairQ ++
            [{ cls := .repair, owner := .repair, kind := .read, target := .lba x.lba, place := some .repairBuf
               attempts := 0, verifyDecision := none, phase := .write }] } }))
  ∧ (∀ e : Ev, (e.rpr.queue = [] ∨ e.rpr.active ≠ none) → e.repairActivate = e)
  ∧ (∀ e : Ev, e.admissionWalk = e.rpr.wait.foldl (fun f t => f.admitOne t) e)
  ∧ ∀ (e : Ev) (t : Tag),
    let n := (e.cmd.tag t).lba
    let left := e.rpr.wait.filter (· != t)
    (∀ pre x post, e.rpr.queue = pre ++ x :: post → (∀ y ∈ pre, y.lba ≠ n) → x.lba = n →
        e.admitOne t = if x.relTag = none then
          { e with rpr := { e.rpr with queue := pre ++ { x with relTag := some t } :: post, wait := left } }
        else e)
    ∧ ((∀ x ∈ e.rpr.queue, x.lba ≠ n) → e.rpr.queue.length ≤ 6 → e.admitOne t = { e with
        rpr := { e.rpr with
          queue := e.rpr.queue ++
            [{ kind := .relocate, lba := n, origin := .software, slot := none, relTag := some t, wtTag := none }]
          wait := left } })
    ∧ ((∀ x ∈ e.rpr.queue, x.lba ≠ n) → 6 < e.rpr.queue.length → e.admitOne t = e)

/-- FLUSH_COMPLETE: the first ACTIVE FLUSH whose set is empty completes, PINNED_PRESENT when its set bears the mark and GOOD
otherwise, and its set is removed (R50). The set bears the mark from acceptance when the pinned count was above 0 then, which
is in AcceptedCommandTakesItsTag (R49), and from the change of a slot that takes it out of the set by making it PINNED: a slot
leaves every set that holds it as it leaves both DIRTY and WRITING, and no other change of a slot changes a set (R50). -/
def Obligations.FlushCompletesOnAnEmptySet : Prop :=
  (∀ (b : Buf) (i : SlotIx) (x : Slot), i < b.slots.length →
    let inWork (y : Slot) : Prop := y.st = .dirty ∨ y.st = .writing
    (inWork (b.slot i) → ¬ inWork x → (b.setSlot i x).flush = b.flush.map (fun f =>
      if i ∈ f.slots then { f with slots := f.slots.filter (· != i), pinned := f.pinned || decide (x.st = .pinned) } else f))
    ∧ ((¬ inWork (b.slot i) ∨ inWork x) → (b.setSlot i x).flush = b.flush)
    ∧ ∀ e : Ev, (e.setSlot i x).buf = e.buf.setSlot i x)
  ∧ ∀ (f : FlushSet) (s : State), s.bus.resetLow = false →
    FirstWith s.buf.flush (fun g => g.slots.isEmpty && s.cmd.isAt g.tag .flush .active) f →
    exec .flushComplete s = .next (Ev.close { s.begin with
      buf := { s.buf with flush := s.buf.flush.filter (·.tag != f.tag) }
      cmd := { s.cmd with
        tags := s.cmd.tags.set f.tag { s.cmd.tag f.tag with st := .reported, claims := [] }
        order := s.cmd.order.filter (· != f.tag) }
      posted := [{ key := 2 * s.cmd.order.idxOf f.tag
                   report := .completion f.tag (if f.pinned then .pinnedPresent else .good) (s.cmd.tag f.tag).done 0 }] })

/-! ## Invariants -/

/-- The invariants hold of State.reset. -/
def Obligations.InvariantsHoldAtReset : Prop :=
  State.reset.ConfigLegal ∧ State.reset.buf.ListsExact ∧ State.reset.ReportRoom ∧ State.reset.TagsExact
    ∧ State.reset.ClosedIdle ∧ State.reset.RepairsDistinct ∧ State.reset.TablesExact ∧ State.reset.TablesGuarded
    ∧ State.reset.InRange ∧ State.reset.WriteJobsSingle ∧ State.reset.SlotsExact ∧ State.reset.WorkServes

/-- Every step keeps every configuration field in its range (R192). -/
def Obligations.StepKeepsConfigurationLegal : Prop :=
  ∀ s t : State, s.ConfigLegal → step s = .next t → t.ConfigLegal

/-- Every step keeps the destage list exact for the DIRTY slots and the clean list exact for the unclaimed CLEAN slots
(R29, R30). -/
def Obligations.StepKeepsBufferListsExact : Prop :=
  ∀ s t : State, s.buf.ListsExact → step s = .next t → t.buf.ListsExact

/-- Every step keeps records and owed completions together at 32 or fewer, the acceptance order list exact for the owed
tags, and the completions in the report queue exact for the REPORTED tags (R61, R79). -/
def Obligations.StepKeepsReportsAndTags : Prop :=
  ∀ s t : State, step s = .next t → (s.ReportRoom → t.ReportRoom) ∧ (s.TagsExact → t.TagsExact)

/-- Every step keeps the link idle while the gate is closed (R120). -/
def Obligations.StepKeepsClosedGateIdle : Prop :=
  ∀ s t : State, s.ClosedIdle → step s = .next t → t.ClosedIdle

/-- Every step keeps the entries of the repair queue for distinct LBAs (R133). -/
def Obligations.StepKeepsRepairsDistinct : Prop :=
  ∀ s t : State, s.RepairsDistinct → step s = .next t → t.RepairsDistinct

/-- Every step keeps the tables exact: as many spare states as S, shared out among FREE, RESERVED, MAPPED and RETIRED, with at
most one RESERVED; the remap entries in strictly ascending LBA order, each for a spare of its own, and the MAPPED spares those
that they name; at most 32 suspect entries, no two for one LBA (R4, R7, R8, R13). TablesGuarded, which is kept with it, rules
out states that no run reaches. That the entries are below L and S is StepKeepsInRange. -/
def Obligations.StepKeepsTablesExact : Prop :=
  ∀ s t : State, s.TablesExact → s.TablesGuarded → step s = .next t → t.TablesExact ∧ t.TablesGuarded

/-- Every step keeps every LBA that the part works with below L and every spare below S, those of the remap table and the
suspect list among them (R4, R13), the end of the load and the beginning and the ends of a PREPARE included, where S and L
change. The other invariants, each kept by every step, rule out states that no run reaches. -/
def Obligations.StepKeepsInRange : Prop :=
  ∀ s t : State, s.TablesExact → s.TablesGuarded → s.TagsExact → s.ClosedIdle → s.RepairsDistinct → s.WriteJobsSingle →
    s.SlotsExact → s.WorkServes → s.InRange → step s = .next t → t.InRange

/-- Every step keeps what serves a command to the time that the command needs it: bindings, waits, requests, FILLING slots,
VERIFY jobs, claims, attached repairs and owed write-through blocks (R51, R66, R68, R86, R94, R138). The other invariants, each kept by
every step, rule out states that no run reaches. -/
def Obligations.StepKeepsWorkServing : Prop :=
  ∀ s t : State, s.TablesExact → s.TablesGuarded → s.TagsExact → s.ClosedIdle → s.RepairsDistinct → s.WriteJobsSingle →
    s.SlotsExact → s.InRange → s.WorkServes → step s = .next t → t.WorkServes

/-- Every step keeps the write jobs for distinct LBAs, at most one destage job, and at most 8 entries in the repair queue
(R38, R43, R133). That every job has the owner, kind, target and place of its class (JobsPlaced), which is kept with it, rules
out states that no run reaches. -/
def Obligations.StepKeepsWriteJobsSingle : Prop :=
  ∀ s t : State, s.WriteJobsSingle → step s = .next t → t.WriteJobsSingle

/-- Every step keeps at most one current slot for an LBA (R28), with ClosedIdle, which is kept by StepKeepsClosedGateIdle. The
other fields of SlotsExact, kept with it, rule out states that no run reaches. -/
def Obligations.StepKeepsCurrentSlotsSingle : Prop :=
  ∀ s t : State, s.SlotsExact → s.ClosedIdle → step s = .next t → t.SlotsExact
end

