-- ==== Sys2Proof/Laws/Moves.lean ====
section
/-! SUPPORT. Laws/Moves.lean: what one event can do, said once: every operation over the part inside an event is a chain of
the moves listed here. A property of the part is kept by every event as soon as each of these moves keeps it. -/

namespace Sys2Proof.Machine

-- One theorem after another: fewer threads, and so less memory, while the file compiles.
set_option Elab.async false

open Sys2Proof

/-- The configuration of the Media Engine is the same. -/
def Media.SameCfg (m m' : Media) : Prop :=
  m'.readRetries = m.readRetries ∧ m'.relocLevel = m.relocLevel ∧ m'.opTimeout = m.opTimeout

/-- A change of the Media Engine inside an event: configuration kept, and no op put on the link unless the gate is OPEN. -/
structure MediaStep (e : Ev) (m : Media) : Prop where
  cfg : e.media.SameCfg m
  link : m.link.isSome = true → e.media.link.isSome = true ∨ e.gate.st = .opened

/-- A change of the Fault Gate inside an event: TRIP_LIMIT kept or legal, and no closing of an OPEN gate with an op
outstanding or in a state where the gate is not armed. -/
structure GateStep (e : Ev) (g : Gate) : Prop where
  limit : g.tripLimit = e.gate.tripLimit ∨ (1 ≤ g.tripLimit ∧ g.tripLimit ≤ 15)
  closes : g.st ≠ .opened → e.gate.st ≠ .opened ∨ (e.media.link = none ∧ e.store.run ≠ .starting)

/-- A change of the Table Store inside an event: STARTING is not entered, and is not recorded as a return state. -/
structure StoreStep (e : Ev) (st : Store) : Prop where
  run : st.run = .starting → e.store.run = .starting ∨ e.store.ret = some .starting
  ret : st.ret = some .starting → e.store.ret = some .starting

/-- A move of a tag inside an event: owed stays owed, REPORTED stays REPORTED. -/
structure TagStep (r r' : TagRec) : Prop where
  owed : r'.owed = r.owed
  reported : r'.st = .reported ↔ r.st = .reported

/-- The moves of an event. Those of a control event only (ctl) are a change of the gate, of the CONTROL fields, of the run
state, an acceptance, and the entry to and the end of a quiesce. -/
inductive Move : Bool → Ev → Ev → Prop where
  | slot {ctl : Bool} (e : Ev) (i : SlotIx) (x : Slot) : Move ctl e (e.setSlot i x)
  | tag {ctl : Bool} (e : Ev) (t : Tag) (r : TagRec) (h : TagStep (e.cmd.tag t) r) : Move ctl e (e.setTag t r)
  | complete {ctl : Bool} (e : Ev) (key : Nat) (t : Tag) (st : Status) (n : Lba) :
      Move ctl e (e.completeAfter key t st n)
  | note {ctl : Bool} (e : Ev) (n : Notice) : Move ctl e (e.notice n)
  | ports {ctl : Bool} (e : Ev) (p : Ports) : Move ctl e { e with ports := p }
  | waiting {ctl : Bool} (e : Ev) (q : List AllocReq) (f : List FlushSet) (n : Nat) :
      Move ctl e { e with buf.allocQ := q, buf.flush := f, buf.lost := n }
  | trans {ctl : Bool} (e : Ev) (t : Trans) (h : t.spareLow = e.trans.spareLow) : Move ctl e { e with trans := t }
  | rpr {ctl : Bool} (e : Ev) (r : Rpr) (h : (e.rpr.queue.map (·.lba)).Nodup → (r.queue.map (·.lba)).Nodup) :
      Move ctl e { e with rpr := r }
  | media {ctl : Bool} (e : Ev) (m : Media) (h : MediaStep e m) : Move ctl e { e with media := m }
  | patrol {ctl : Bool} (e : Ev) (p : Patrol) (h : p.burst = e.patrol.burst ∧ p.interval = e.patrol.interval) :
      Move ctl e { e with patrol := p }
  | store {ctl : Bool} (e : Ev) (st : Store) (hr : st.run = e.store.run) (ht : st.ret = e.store.ret) :
      Move ctl e { e with store := st }
  | marks {ctl : Bool} (e : Ev) (k : Nat) (p : Bool) : Move ctl e { e with flushKey := k, paused := p }
  | gate (e : Ev) (g : Gate) (h : GateStep e g) : Move true e { e with gate := g }
  | run (e : Ev) (st : Store) (h : StoreStep e st) : Move true e { e with store := st }
  | bus (e : Ev) (b : Bus) (h : b.resetLow = e.bus.resetLow) : Move true e { e with bus := b }
  | accept (e : Ev) (o : Opcode) (t : Tag) (v : Word) (hf : e.cmd.freeTag = some t)
      (hr : e.recordSum < Config.reportPlaces) : Move true e (e.accept o t v)
  | abandon (e : Ev) : Move true e { e with cmd.tags := e.cmd.tags.map TagRec.abandon, cmd.order := [] }
  | clear (e : Ev) :
      Move true e { e with
        posted := []
        rep := { recs := [], noticeLost := false }
        cmd := { e.cmd with tags := e.cmd.tags.map TagRec.popped, submit := .none, abortRefused := false } }

/-- A chain of moves. -/
inductive Moves : Bool → Ev → Ev → Prop where
  | refl {ctl : Bool} (e : Ev) : Moves ctl e e
  | tail {ctl : Bool} {a b c : Ev} (h : Moves ctl a b) (k : Move ctl b c) : Moves ctl a c

variable {ctl : Bool}

theorem Moves.one {a b : Ev} (k : Move ctl a b) : Moves ctl a b := .tail (.refl a) k

/-- What any move may do, a control event may do. -/
theorem Move.control {a b : Ev} (k : Move ctl a b) : Move true a b := by
  cases k with
  | slot _ i x => exact .slot _ i x
  | tag _ t r h => exact .tag _ t r h
  | complete _ key t st n => exact .complete _ key t st n
  | note _ n => exact .note _ n
  | ports _ p => exact .ports _ p
  | waiting _ q f n => exact .waiting _ q f n
  | trans _ t h => exact .trans _ t h
  | rpr _ r h => exact .rpr _ r h
  | media _ m h => exact .media _ m h
  | patrol _ p h => exact .patrol _ p h
  | store _ st hr ht => exact .store _ st hr ht
  | marks _ k p => exact .marks _ k p
  | gate _ g h => exact .gate _ g h
  | run _ st h => exact .run _ st h
  | bus _ b h => exact .bus _ b h
  | accept _ o t v hf hr => exact .accept _ o t v hf hr
  | abandon _ => exact .abandon _
  | clear _ => exact .clear _

theorem Moves.control {a b : Ev} (h : Moves ctl a b) : Moves true a b := by
  induction h with
  | refl => exact .refl _
  | tail _ k ih => exact .tail ih k.control

theorem Moves.trans {a b c : Ev} (h : Moves ctl a b) (k : Moves ctl b c) : Moves ctl a c := by
  induction k with
  | refl => exact h
  | tail _ m ih => exact .tail ih m

/-- The last part first: the goal then names what is left. -/
theorem Moves.after {a b c : Ev} (k : Moves ctl b c) (h : Moves ctl a b) : Moves ctl a c := h.trans k

/-- A property that each move keeps is kept by a chain. -/
theorem Moves.keep {P : Ev → Prop} (hP : ∀ a b, Move ctl a b → P a → P b) {a b : Ev} (h : Moves ctl a b) (ha : P a) : P b := by
  induction h with
  | refl => exact ha
  | tail _ m ih => exact hP _ _ m ih

theorem Moves.foldl {α : Type} {f : Ev → α → Ev} (hf : ∀ e x, Moves ctl e (f e x)) (l : List α) (e : Ev) :
    Moves ctl e (l.foldl f e) := by
  induction l generalizing e with
  | nil => exact .refl e
  | cons x l ih => exact (hf e x).trans (ih _)

theorem Moves.ite {c : Prop} [Decidable c] {e a b : Ev} (ha : Moves ctl e a) (hb : Moves ctl e b) :
    Moves ctl e (if c then a else b) := by split <;> assumption

theorem TagStep.same {r r' : TagRec} (h : r'.st = r.st) : TagStep r r' :=
  ⟨by simp [TagRec.owed, h], by rw [h]⟩

/-- A chain of setSlot, with the operations named for it. -/
theorem moves_setSlot (e : Ev) (i : SlotIx) (x : Slot) : Moves ctl e (e.setSlot i x) := .one (.slot e i x)

theorem moves_freeSlot (e : Ev) (i : SlotIx) : Moves ctl e (e.freeSlot i) := .one (.slot e i _)

theorem moves_setTag_same (e : Ev) (t : Tag) (r : TagRec) (h : r.st = (e.cmd.tag t).st := by rfl) :
    Moves ctl e (e.setTag t r) :=
  .one (.tag e t r (.same h))

theorem moves_notice (e : Ev) (n : Notice) : Moves ctl e (e.notice n) := .one (.note e n)

theorem moves_complete (e : Ev) (t : Tag) (st : Status) (n : Lba) : Moves ctl e (e.complete t st n) :=
  .one (.complete e 0 t st n)

theorem moves_completeAfter (e : Ev) (k : Nat) (t : Tag) (st : Status) (n : Lba) : Moves ctl e (e.completeAfter k t st n) :=
  .one (.complete e k t st n)

theorem moves_activate (e : Ev) (t : Tag) : Moves ctl e (e.activate t) := by
  unfold Ev.activate
  split
  · rename_i h
    refine .one (.tag e t _ ⟨?_, ?_⟩) <;> simp [TagRec.owed, h]
  · exact .refl e

theorem moves_blockDone (e : Ev) (t : Tag) : Moves ctl e (e.blockDone t) := moves_setTag_same e t _

/-! ## The Media Engine's lists -/

theorem Media.addJob_link (m : Media) (j : Job) : (m.addJob j).link = m.link := by
  unfold Media.addJob; split <;> rfl

theorem Media.addJob_cfg (m : Media) (j : Job) : m.SameCfg (m.addJob j) := by
  unfold Media.addJob; split <;> exact ⟨rfl, rfl, rfl⟩

theorem Media.requeue_link (m : Media) (j : Job) : (m.requeue j).link = m.link := by
  unfold Media.requeue; split <;> rfl

theorem Media.requeue_cfg (m : Media) (j : Job) : m.SameCfg (m.requeue j) := by
  unfold Media.requeue; split <;> exact ⟨rfl, rfl, rfl⟩

theorem Media.takeJob_cfg (m : Media) (j : Job) : m.SameCfg (m.takeJob j) := by
  unfold Media.takeJob; split <;> exact ⟨rfl, rfl, rfl⟩

theorem moves_addJob (e : Ev) (j : Job) : Moves ctl e (e.addJob j) :=
  .one (.media e _ ⟨e.media.addJob_cfg j, fun h => .inl (by rwa [Media.addJob_link] at h)⟩)

/-- A change of the Media Engine that keeps whether the link is full. -/
theorem moves_media (e : Ev) (m : Media) (hc : e.media.SameCfg m)
    (hl : m.link.isSome = true → e.media.link.isSome = true) : Moves ctl e { e with media := m } :=
  .one (.media e m ⟨hc, fun h => .inl (hl h)⟩)

theorem moves_requeue (e : Ev) (j : Job) : Moves ctl e { e with media := e.media.requeue j } :=
  moves_media e _ (e.media.requeue_cfg j) (by rw [Media.requeue_link]; exact id)

/-- A change of the allocator queue and the flush sets. -/
theorem moves_waiting (e : Ev) (q : List AllocReq) (f : List FlushSet) (n : Nat) :
    Moves ctl e { e with buf.allocQ := q, buf.flush := f, buf.lost := n } := .one (.waiting e q f n)

/-- A change of the repair unit that leaves its queue as it is. -/
theorem moves_rpr_same (e : Ev) (r : Rpr) (h : r.queue.map (·.lba) = e.rpr.queue.map (·.lba)) :
    Moves ctl e { e with rpr := r } := .one (.rpr e r (by rw [h]; exact id))

/-- TABLE_DIRTY and the other fields of the Table Store that are neither the run state nor the return state. -/
theorem moves_store_same (e : Ev) (st : Store) (hr : st.run = e.store.run) (ht : st.ret = e.store.ret) :
    Moves ctl e { e with store := st } := .one (.store e st hr ht)

theorem moves_markDirty (e : Ev) : Moves ctl e e.markDirty := moves_store_same e _ rfl rfl

theorem moves_trans_same (e : Ev) (t : Trans) (h : t.spareLow = e.trans.spareLow := by rfl) :
    Moves ctl e { e with trans := t } :=
  .one (.trans e t h)

/-- A change of the tables with TABLE_DIRTY set. -/
theorem moves_tables (e : Ev) (t : Trans) (h : t.spareLow = e.trans.spareLow := by rfl) :
    Moves ctl e { e with trans := t, store.dirty := true } :=
  (moves_trans_same e t h).trans (moves_markDirty _)

/-! ## Translation (chapter 1) -/

theorem moves_spareLowOnReserve (e : Ev) : Moves ctl e e.spareLowOnReserve := by
  unfold Ev.spareLowOnReserve
  refine .ite ?_ (.refl e)
  exact (moves_notice e _).trans (moves_trans_same _ _)

theorem moves_spareLowOnTables (e : Ev) : Moves ctl e e.spareLowOnTables := by
  unfold Ev.spareLowOnTables
  exact .ite ((moves_notice e _).trans (moves_trans_same _ _)) (moves_trans_same e _)

theorem moves_reserveSpare (e : Ev) (r : Nat) : Moves ctl e (e.reserveSpare r) :=
  .after (moves_spareLowOnReserve _) (moves_trans_same e _)

theorem moves_retireSpare (e : Ev) (r : Nat) : Moves ctl e (e.retireSpare r) := moves_tables e _

theorem moves_returnSpare (e : Ev) (r : Nat) : Moves ctl e (e.returnSpare r) := moves_trans_same e _

theorem moves_suspectAdd (e : Ev) (n : Lba) (c : Cause) : Moves ctl e (e.suspectAdd n c) := by
  unfold Ev.suspectAdd
  refine .ite (.refl e) (.ite ?_ (moves_notice e _))
  exact (moves_tables e { e.trans with suspects := e.trans.suspects ++ [{ lba := n, cause := c }] }).trans
    (moves_notice _ _)

theorem moves_suspectClear (e : Ev) (n : Lba) (how : ClearedBy) : Moves ctl e (e.suspectClear n how) := by
  unfold Ev.suspectClear
  exact .ite (.after (moves_notice _ _) (moves_tables e _)) (.refl e)

theorem Trans.mapTo_spareLow (t : Trans) (n : Lba) (r : Nat) (o : Origin) : (t.mapTo n r o).spareLow = t.spareLow := by
  unfold Trans.mapTo; cases t.spareOf n <;> rfl

theorem moves_tableUpdate (e : Ev) (n : Lba) (r : Nat) (o : Origin) : Moves ctl e (e.tableUpdate n r o) :=
  (moves_tables e _ (e.trans.mapTo_spareLow n r o)).trans (moves_notice _ _)

/-! ## Commands (chapter 3) -/

theorem moves_claim (e : Ev) (t : Tag) (k : Nat) (i : SlotIx) : Moves ctl e (e.claim t k i) :=
  (moves_setSlot e i _).trans (moves_setTag_same _ t _)

theorem moves_dropClaim (e : Ev) (t : Tag) (i : SlotIx) : Moves ctl e (e.dropClaim t i) :=
  (moves_setSlot e i _).trans (moves_setTag_same _ t _)

theorem moves_freeClaimed (e : Ev) (i : SlotIx) : Moves ctl e (e.freeClaimed i) :=
  .after (moves_freeSlot _ i) (.foldl (fun _ t => moves_setTag_same _ t _) _ e)

theorem moves_unbind (e : Ev) (t : Tag) : Moves ctl e (e.unbind t) := .one (.ports e _)

theorem moves_detachLoads (e : Ev) (t : Tag) : Moves ctl e (e.detachLoads t) := by
  refine .after (moves_media _ _ ⟨rfl, rfl, rfl⟩ ?_) (.foldl (fun e i => moves_setSlot e i _) _ e)
  intro h
  simpa [Option.isSome_map] using h

theorem moves_stopFilling (e : Ev) (t : Tag) : Moves ctl e (e.stopFilling t) :=
  .after (moves_unbind _ t) (.after (moves_waiting _ _ _ _) (.foldl (fun e i => moves_freeSlot e i) _ e))

theorem moves_release (e : Ev) (t : Tag) : Moves ctl e (e.release t) :=
  .after (moves_detachLoads _ t)
    (.after (.foldl (fun e (c : Nat × SlotIx) => moves_dropClaim e t c.2) _ _) (moves_stopFilling e t))

theorem moves_writeCheck (e : Ev) (k : Nat) (t : Tag) : Moves ctl e (e.writeCheck k t) := by
  unfold Ev.writeCheck
  dsimp only
  refine .ite ?_ (.ite (.ite (moves_completeAfter ..) (.refl e)) (.refl e))
  split
  · exact .ite (moves_completeAfter ..) (.refl e)
  · exact .ite (moves_completeAfter ..) (.refl e)

theorem moves_recordFailure (e : Ev) (t : Tag) (st : Status) (n : Lba) : Moves ctl e (e.recordFailure t st n) := by
  unfold Ev.recordFailure
  exact .ite ((moves_setTag_same e t _).trans (moves_stopFilling _ t)) (.refl e)

theorem moves_writeFailed (e : Ev) (k : Nat) (t : Tag) (st : Status) (n : Lba) : Moves ctl e (e.writeFailed k t st n) :=
  (moves_recordFailure e t st n).trans (moves_writeCheck _ k t)

theorem moves_dropThrough (e : Ev) (t : Tag) : Moves ctl e (e.dropThrough t) := by
  refine .after (moves_rpr_same _ _ ?_) (.foldl (fun e i => moves_freeSlot e i) _ e)
  dsimp only
  rw [List.map_map]
  rfl

theorem moves_loosenThrough (e : Ev) (t : Tag) : Moves ctl e (e.loosenThrough t) := by
  refine moves_rpr_same _ _ ?_
  dsimp only
  rw [List.map_map]
  congr 1
  funext x
  simp only [Function.comp, RepairEntry.loosenThrough]
  split <;> rfl

theorem moves_writeLatched (e : Ev) (t : Tag) (n : Lba) : Moves ctl e (e.writeLatched t n) :=
  (moves_dropThrough e t).trans (moves_writeFailed ..)

theorem moves_writeEnded (e : Ev) (k : Nat) (t : Tag) : Moves ctl e (e.writeEnded k t) :=
  (moves_blockDone e t).trans (moves_writeCheck _ k t)

theorem moves_readFails (e : Ev) (t : Tag) (st : Status) (n : Lba) : Moves ctl e (e.readFails t st n) :=
  (moves_release e t).trans (moves_complete _ t st n)

theorem moves_dropVerifies (e : Ev) (t : Tag) : Moves ctl e (e.dropVerifies t) :=
  moves_media e _ ⟨rfl, rfl, rfl⟩ id

theorem moves_verifyFails (e : Ev) (t : Tag) (st : Status) (n : Lba) : Moves ctl e (e.verifyFails t st n) :=
  (moves_dropVerifies e t).trans (moves_complete _ t st n)

theorem moves_verifyReach (e : Ev) (t : Tag) : Moves ctl e (e.verifyReach t) := by
  unfold Ev.verifyReach
  dsimp only
  have h : Moves ctl e _ := moves_setTag_same e t { e.cmd.tag t with looked := (e.cmd.tag t).looked + 1 }
  exact .ite (h.trans (moves_blockDone _ t)) (.ite (h.trans (moves_verifyFails ..)) (h.trans (moves_addJob ..)))

theorem moves_verifyGo (k : Nat) (e : Ev) (t : Tag) : Moves ctl e (e.verifyGo k t) := by
  induction k generalizing e with
  | zero => exact .refl e
  | succ k ih =>
    unfold Ev.verifyGo
    dsimp only
    exact .ite (.ite (moves_complete ..) (.ite ((moves_verifyReach e t).trans (ih _)) (.refl e))) (.refl e)

theorem moves_verifyAdvance (e : Ev) (t : Tag) : Moves ctl e (e.verifyAdvance t) := moves_verifyGo _ e t

end Sys2Proof.Machine
end

