-- ==== Sys2Proof/Laws/MovesRepair.lean ====
section
/-! SUPPORT. Laws/MovesRepair.lean: the operations of the Repair Unit and of the Staging Buffer are chains of moves. -/

namespace Sys2Proof.Machine

open Sys2Proof

variable {ctl : Bool}

/-! ## Lists of LBAs -/

theorem nodup_tail_map {α β : Type} (f : α → β) (l : List α) (h : (l.map f).Nodup) : (l.tail.map f).Nodup := by
  cases l with
  | nil => exact h
  | cons x l => exact (List.nodup_cons.mp h).2

/-- An element replaced by one of the same key keeps the keys. -/
theorem map_set_same {α β : Type} (f : α → β) (l : List α) (k : Nat) (x y : α) (h : l[k]? = some x) (hf : f y = f x) :
    (l.set k y).map f = l.map f := by
  apply List.ext_getElem?
  intro i
  simp only [List.getElem?_map, List.getElem?_set]
  by_cases hk : k = i
  · subst hk
    have hl : k < l.length := by
      rcases Nat.lt_or_ge k l.length with hlt | hge
      · exact hlt
      · rw [List.getElem?_eq_none hge] at h; cases h
    rw [List.getElem?_eq_getElem hl] at h
    cases h
    simp [hl, hf]
  · simp [hk]

theorem map_modify_same {α β : Type} (f : α → β) (g : α → α) (hg : ∀ x, f (g x) = f x) (l : List α) (k : Nat) :
    (l.modify k g).map f = l.map f := by
  apply List.ext_getElem?
  intro i
  simp only [List.getElem?_map, List.getElem?_modify]
  by_cases hk : k = i
  · simp only [hk, if_true]
    cases l[i]? <;> simp [hg]
  · simp only [hk, if_false]
    cases l[i]? <;> simp

theorem Rpr.entryOf_none (r : Rpr) (n : Lba) (h : r.entryOf n = none) : n ∉ r.queue.map (·.lba) := by
  unfold Rpr.entryOf at h
  rw [List.findIdx?_eq_none_iff] at h
  intro hm
  obtain ⟨x, hx, hxn⟩ := List.mem_map.mp hm
  have := h x hx
  simp [hxn] at this

/-- An entry of a new LBA joins at the tail. -/
theorem moves_rpr_append (e : Ev) (x : RepairEntry) (w : List Tag) (h : x.lba ∉ e.rpr.queue.map (·.lba)) :
    Moves ctl e { e with rpr.queue := e.rpr.queue ++ [x], rpr.wait := w } := by
  refine .one (.rpr e _ ?_)
  intro hn
  rw [List.map_append, List.nodup_append]
  refine ⟨hn, by simp, ?_⟩
  intro a ha b hb hab
  simp only [List.map_cons, List.map_nil, List.mem_singleton] at hb
  exact h (hb ▸ hab ▸ ha)

/-! ## Repair (chapter 7) -/

theorem moves_popRepair (e : Ev) : Moves ctl e e.popRepair := .one (.rpr e _ (nodup_tail_map _ _))

theorem moves_endRelocate (e : Ev) (k : Nat) (x : RepairEntry) (st : Status) : Moves ctl e (e.endRelocate k x st) := by
  unfold Ev.endRelocate
  cases x.relTag with
  | none => exact .refl e
  | some t => exact moves_completeAfter ..

theorem moves_slotWritten (e : Ev) (i : SlotIx) : Moves ctl e (e.slotWritten i) :=
  .ite (moves_freeSlot e i) (moves_setSlot e i _)

theorem moves_writeEndedOpt (e : Ev) (k : Nat) (o : Option Tag) :
    Moves ctl e (match o with | some t => e.writeEnded k t | none => e) := by
  cases o with
  | none => exact .refl e
  | some t => exact moves_writeEnded e k t

theorem moves_writeFailedOpt (e : Ev) (k : Nat) (o : Option Tag) (st : Status) (n : Lba) :
    Moves ctl e (match o with | some t => e.writeFailed k t st n | none => e) := by
  cases o with
  | none => exact .refl e
  | some t => exact moves_writeFailed e k t st n

theorem moves_repairMapped (e : Ev) (x : RepairEntry) : Moves ctl e (e.repairMapped x) := by
  unfold Ev.repairMapped
  dsimp only
  refine .after (moves_writeEndedOpt _ _ x.owedTo) (.after (moves_endRelocate ..) (.after (moves_popRepair _) ?_))
  split
  · exact moves_slotWritten ..
  · exact .refl e

theorem moves_marks (e : Ev) (k : Nat) (p : Bool) : Moves ctl e { e with flushKey := k, paused := p } := .one (.marks e k p)

theorem moves_remapNoSpare (e : Ev) (x : RepairEntry) : Moves ctl e (e.remapNoSpare x) := by
  unfold Ev.remapNoSpare
  dsimp only
  refine .after (moves_marks _ _ _) (.after (moves_writeFailedOpt _ _ x.owedTo _ _)
    (.after (moves_endRelocate ..) (.after (moves_popRepair _) ?_)))
  cases x.wtTag with
  | none => exact .ite (moves_freeSlot ..) (.after (moves_notice ..) (moves_setSlot ..))
  | some t => exact .after (moves_suspectAdd ..) (moves_freeSlot ..)

theorem moves_relocationFailed (e : Ev) (x : RepairEntry) (w : RelocFail) : Moves ctl e (e.relocationFailed x w) :=
  .after (moves_endRelocate ..) (.after (moves_popRepair _) (moves_notice ..))

theorem moves_repairReserve (e : Ev) (x : RepairEntry) (p : Place) : Moves ctl e (e.repairReserve x p) := by
  unfold Ev.repairReserve
  split
  · exact .after (moves_addJob ..) (.after (moves_rpr_same _ _ rfl) (moves_reserveSpare ..))
  · split
    · exact moves_remapNoSpare e x
    · exact moves_relocationFailed e x _

theorem moves_repairData (e : Ev) (x : RepairEntry) : Moves ctl e (e.repairData x) := by
  unfold Ev.repairData
  split
  · exact moves_repairReserve ..
  · split
    · exact .after (moves_repairReserve ..) (moves_rpr_same _ _ rfl)
    · exact .after (moves_addJob ..) (moves_rpr_same _ _ rfl)

theorem moves_repairBegin (e : Ev) (x : RepairEntry) : Moves ctl e (e.repairBegin x) := by
  unfold Ev.repairBegin
  dsimp only
  exact .ite (moves_rpr_same _ _ rfl) (.after (moves_repairData ..) (moves_rpr_same _ _ rfl))

theorem moves_repairActivate? (e e' : Ev) (h : e.repairActivate? = some e') : Moves ctl e e' := by
  unfold Ev.repairActivate? at h
  split at h
  · cases h; exact moves_repairBegin ..
  · cases h

theorem moves_getD (e : Ev) (o : Option Ev) (h : ∀ e', o = some e' → Moves ctl e e') : Moves ctl e (o.getD e) := by
  cases o with
  | none => exact .refl e
  | some e' => exact h e' rfl

theorem moves_repairActivate (e : Ev) : Moves ctl e e.repairActivate := moves_getD e _ (moves_repairActivate? e)

theorem moves_repairWake (e : Ev) : Moves ctl e e.repairWake := by
  unfold Ev.repairWake
  split
  · exact .ite (moves_repairData ..) (.refl e)
  · exact .refl e

theorem moves_spareFailed (e : Ev) (x : RepairEntry) (a : ActiveRepair) : Moves ctl e (e.spareFailed x a) := by
  unfold Ev.spareFailed
  dsimp only
  refine .after (moves_repairReserve ..) (.after (moves_rpr_same _ _ rfl) ?_)
  split
  · exact moves_retireSpare ..
  · exact .refl e

theorem moves_spareWritten (e : Ev) (a : ActiveRepair) : Moves ctl e (e.spareWritten a) :=
  .after (moves_addJob ..) (moves_rpr_same _ _ rfl)

theorem moves_sparePassed (e : Ev) (x : RepairEntry) (a : ActiveRepair) : Moves ctl e (e.sparePassed x a) :=
  .after (moves_rpr_same _ _ rfl) (moves_tableUpdate ..)

theorem moves_admitOne (e : Ev) (t : Tag) : Moves ctl e (e.admitOne t) := by
  unfold Ev.admitOne
  dsimp only
  split
  · split
    · rename_i h
      exact .ite (moves_rpr_same _ _ (map_set_same _ _ _ _ _ h rfl)) (.refl e)
    · exact .refl e
  · rename_i h
    exact .ite (moves_rpr_append _ _ _ (e.rpr.entryOf_none _ h)) (.refl e)

theorem moves_admissionWalk (e : Ev) : Moves ctl e e.admissionWalk := .foldl moves_admitOne _ e

theorem moves_admissionServe? (e e' : Ev) (h : e.admissionServe? = some e') : Moves ctl e e' := by
  unfold Ev.admissionServe? at h
  split at h
  · cases h; exact moves_admissionWalk e
  · cases h

theorem State.not_held (s : State) (n : Lba) (h : s.held n = false) : n ∉ s.rpr.queue.map (·.lba) := by
  intro hm
  obtain ⟨x, hx, hxn⟩ := List.mem_map.mp hm
  have : s.held n = true := List.any_eq_true.mpr ⟨x, hx, by simp [hxn]⟩
  rw [h] at this; cases this

theorem moves_relocateRequest (e : Ev) (n : Lba) : Moves ctl e (e.relocateRequest n) := by
  unfold Ev.relocateRequest
  split
  · exact .refl e
  · rename_i h
    refine .ite (.after (moves_repairActivate _) (.after (moves_admissionWalk _) ?_)) (moves_notice ..)
    exact moves_rpr_append e _ e.rpr.wait (e.toState.not_held n (by simpa using h))

theorem moves_remapRequest (e : Ev) (n : Lba) (i : SlotIx) (w : Option Tag) : Moves ctl e (e.remapRequest n i w) := by
  unfold Ev.remapRequest
  split
  · refine .after (moves_repairWake _) (moves_rpr_same _ _ ?_)
    exact map_modify_same _ _ (by intro x; rfl) _ _
  · rename_i h
    exact .after (moves_repairActivate _) (.after (moves_admissionWalk _)
      (moves_rpr_append e _ e.rpr.wait (e.rpr.entryOf_none n h)))

/-! ## Staging Buffer (chapter 2) -/

theorem moves_withdrawLoad (e : Ev) (i : SlotIx) : Moves ctl e (e.withdrawLoad i) :=
  moves_media e _ ⟨rfl, rfl, rfl⟩ (fun h => by simpa [Option.isSome_map] using h)

theorem moves_replacePrevious (e : Ev) (n : Lba) : Moves ctl e (e.replacePrevious n) := by
  unfold Ev.replacePrevious
  split
  · exact .refl e
  · split
    · exact moves_freeSlot ..
    · exact moves_freeSlot ..
    · exact moves_freeSlot ..
    · exact moves_setSlot ..
    · exact .after (moves_withdrawLoad ..) (moves_freeSlot ..)
    · exact .refl e
    · exact .refl e

theorem moves_fillComplete (e : Ev) (t : Tag) (i : SlotIx) : Moves ctl e (e.fillComplete t i) := by
  unfold Ev.fillComplete
  dsimp only
  exact .ite (.after (moves_setSlot ..) (moves_replacePrevious ..))
    (.after (moves_blockDone ..) (.after (moves_setSlot ..) (moves_replacePrevious ..)))

theorem moves_fillRequest (e : Ev) (t : Tag) (k : Nat) : Moves ctl e (e.fillRequest t k) := moves_waiting e _ _ _

theorem moves_lookupBlock (e : Ev) (t : Tag) (k : Nat) : Moves ctl e (e.lookupBlock t k) := by
  unfold Ev.lookupBlock
  dsimp only
  split
  · exact .after (moves_claim ..) (moves_setTag_same e t _)
  · exact .after (moves_waiting _ _ _ _) (moves_setTag_same e t _)

theorem moves_readLookup? (e e' : Ev) (h : e.readLookup? = some e') : Moves ctl e e' := by
  unfold Ev.readLookup? at h
  obtain ⟨t, _, rfl⟩ := Option.map_eq_some_iff.mp h
  exact moves_lookupBlock ..

theorem moves_placeLoad (e : Ev) (i : SlotIx) (d : BlockData) : Moves ctl e (e.placeLoad i d) :=
  .ite (moves_setSlot ..) (.refl e)

theorem moves_loadGood (e : Ev) (i : SlotIx) : Moves ctl e (e.loadGood i) := .ite (moves_setSlot ..) (.refl e)

theorem moves_loadFailed (e : Ev) (i : SlotIx) (n : Lba) : Moves ctl e (e.loadFailed i n) := by
  unfold Ev.loadFailed
  dsimp only
  refine .after (moves_freeClaimed ..) (.after (.foldl (fun e t => moves_readFails e t _ _) _ _) ?_)
  exact .ite (.refl e) (moves_suspectAdd ..)

theorem moves_serveWith (e : Ev) (q : AllocReq) (i : SlotIx) : Moves ctl e (e.serveWith q i) := by
  unfold Ev.serveWith
  dsimp only
  split
  · exact .after (moves_setSlot ..) (moves_freeSlot ..)
  · exact .ite (.after (moves_readFails ..) (moves_freeSlot ..))
      (.after (moves_addJob ..) (.after (moves_claim ..) (.after (moves_setSlot ..) (moves_freeSlot ..))))

theorem moves_slotAlloc? (e e' : Ev) (h : e.slotAlloc? = some e') : Moves ctl e e' := by
  unfold Ev.slotAlloc? at h
  split at h
  · dsimp only at h
    split at h
    · cases h; exact .after (moves_claim ..) (moves_waiting e _ _ _)
    · cases h; exact .after (moves_serveWith ..) (moves_waiting e _ _ _)
  · cases h

theorem moves_wtMake (e : Ev) (i : SlotIx) : Moves ctl e (e.wtMake i) := by
  unfold Ev.wtMake
  split
  · exact .ite (moves_writeLatched ..) (moves_addJob ..)
  · exact .refl e

theorem moves_wtCreate? (e e' : Ev) (h : e.wtCreate? = some e') : Moves ctl e e' := by
  unfold Ev.wtCreate? at h
  obtain ⟨i, _, rfl⟩ := Option.map_eq_some_iff.mp h
  exact moves_wtMake ..

theorem moves_offer (e : Ev) (i : SlotIx) : Moves ctl e (e.offer i) := .after (moves_addJob ..) (moves_setSlot ..)

theorem moves_destageOffer? (e e' : Ev) (h : e.destageOffer? = some e') : Moves ctl e e' := by
  unfold Ev.destageOffer? at h
  split at h
  · cases h
  · obtain ⟨i, _, rfl⟩ := Option.map_eq_some_iff.mp h
    exact moves_offer ..

theorem moves_writeJobGood (e : Ev) (i : SlotIx) (o : JobOwner) : Moves ctl e (e.writeJobGood i o) := by
  unfold Ev.writeJobGood
  dsimp only
  refine .after (moves_repairWake _) ?_
  cases o with
  | tag t => exact .after (moves_writeEnded ..) (moves_slotWritten ..)
  | staging => exact moves_slotWritten ..
  | repair => exact moves_slotWritten ..
  | patrol => exact moves_slotWritten ..
  | store => exact moves_slotWritten ..

theorem moves_writeJobFault (e : Ev) (i : SlotIx) (n : Lba) (o : JobOwner) : Moves ctl e (e.writeJobFault i n o) :=
  .after (moves_remapRequest ..) (moves_setSlot ..)

theorem moves_dropSet (e : Ev) (t : Tag) : Moves ctl e (e.dropSet t) := moves_waiting e _ _ _

theorem moves_flushComplete? (e e' : Ev) (h : e.flushComplete? = some e') : Moves ctl e e' := by
  unfold Ev.flushComplete? at h
  obtain ⟨f, _, rfl⟩ := Option.map_eq_some_iff.mp h
  exact .after (moves_completeAfter ..) (moves_dropSet ..)

end Sys2Proof.Machine
end

