-- ==== Sys2Proof/Laws/MovesLink.lean ====
section
/-! SUPPORT. Laws/MovesLink.lean: the operations of the Fault Gate and the Media Engine are chains of moves. -/

namespace Sys2Proof.Machine

open Sys2Proof

variable {ctl : Bool}

/-! ## Fault Gate (chapter 6) -/

theorem moves_abandonOp (e : Ev) : Moves ctl e e.abandonOp := by
  unfold Ev.abandonOp
  dsimp only
  split
  · exact .refl e
  · split
    · refine moves_media e _ (Media.requeue_cfg { e.media with link := none, opTimer := none } _) ?_
      intro h
      rw [Media.requeue_link] at h
      cases h
    · exact moves_media e _ ⟨rfl, rfl, rfl⟩ (fun h => by cases h)

theorem Ev.abandonOp_link (e : Ev) : e.abandonOp.media.link = none := by
  unfold Ev.abandonOp
  dsimp only
  split
  · assumption
  · split
    · exact Media.requeue_link _ _
    · rfl

theorem Ev.abandonOp_keeps (e : Ev) :
    e.abandonOp.gate = e.gate ∧ e.abandonOp.store = e.store ∧ e.abandonOp.bus = e.bus := by
  unfold Ev.abandonOp
  dsimp only
  split
  · exact ⟨rfl, rfl, rfl⟩
  · split <;> exact ⟨rfl, rfl, rfl⟩

theorem Ev.notice_keeps (e : Ev) (n : Notice) :
    (e.notice n).gate = e.gate ∧ (e.notice n).store = e.store ∧ (e.notice n).bus = e.bus
      ∧ (e.notice n).media = e.media := by
  unfold Ev.notice
  split <;> exact ⟨rfl, rfl, rfl, rfl⟩

theorem moves_latchTag (jobs : List Job) (e : Ev) (t : Tag) : Moves ctl e (Ev.latchTag jobs e t) := by
  unfold Ev.latchTag
  dsimp only
  split
  · split
    · exact moves_readFails ..
    · exact .refl e
  · split
    · exact moves_verifyFails ..
    · exact .refl e
  · split
    · exact moves_writeLatched ..
    · exact moves_loosenThrough ..
  · exact moves_writeLatched ..
  · exact .refl e

theorem moves_failFast (e : Ev) : Moves ctl e e.failFast := by
  unfold Ev.failFast
  dsimp only
  exact .after (moves_repairWake _) (.after (.foldl moves_freeClaimed _ _)
    (.after (.foldl (moves_latchTag _) _ _) (moves_media e _ ⟨rfl, rfl, rfl⟩ id)))

/-- The gate enters LATCHED from a closed state, or with the link idle and the gate armed. -/
theorem moves_latch (e : Ev) (h : e.gate.st ≠ .opened ∨ (e.media.link = none ∧ e.store.run ≠ .starting)) :
    Moves true e e.latch :=
  .after (moves_failFast _) (.after (moves_notice ..) (.one (.gate e _ ⟨.inl rfl, fun _ => h⟩)))

theorem RunState.armed_ne_starting (r : RunState) (h : r.armed = true) : r ≠ .starting := by
  cases r <;> simp_all [RunState.armed]

theorem moves_tripInput (e : Ev) (c : TripCause) : Moves true e (e.tripInput c) := by
  unfold Ev.tripInput
  split
  · rename_i h
    simp only [Bool.and_eq_true, beq_iff_eq] at h
    dsimp only
    have hk := e.abandonOp_keeps
    have hl := e.abandonOp_link
    have hr := RunState.armed_ne_starting _ h.1
    have m1 : Moves true e { e.abandonOp with gate.trips := e.abandonOp.gate.trips + 1 } := by
      refine .after (.one (.gate _ _ ⟨.inl rfl, ?_⟩)) (moves_abandonOp e)
      intro hc
      exact absurd (by rw [← h.2, ← hk.1]) hc
    have m2 := m1.trans (moves_notice _ (.trip c))
    have nk := Ev.notice_keeps { e.abandonOp with gate.trips := e.abandonOp.gate.trips + 1 } (.trip c)
    have hn : (Ev.notice { e.abandonOp with gate.trips := e.abandonOp.gate.trips + 1 } (.trip c)).media.link = none := by
      rw [nk.2.2.2]; exact hl
    have hs : (Ev.notice { e.abandonOp with gate.trips := e.abandonOp.gate.trips + 1 } (.trip c)).store.run ≠ .starting := by
      rw [nk.2.1]; show e.abandonOp.store.run ≠ _; rw [hk.2.1]; exact hr
    refine .ite (m2.trans (moves_latch _ (.inr ⟨hn, hs⟩))) (m2.trans (.one (.gate _ _ ⟨.inl rfl, fun _ => .inr ⟨hn, hs⟩⟩)))
  · exact .refl e

theorem moves_holdExpires (e : Ev) : Moves true e e.holdExpires := by
  unfold Ev.holdExpires
  split
  · rename_i h
    simp only [Bool.and_eq_true, beq_iff_eq] at h
    refine .ite (.one (.gate e _ ⟨.inl rfl, fun _ => .inl (by rw [h.2]; decide)⟩)) (.after (moves_notice ..) ?_)
    exact .one (.gate e _ ⟨.inl rfl, fun hc => absurd rfl hc⟩)
  · exact .refl e

theorem moves_reopen (e : Ev) : Moves true e e.reopen := by
  unfold Ev.reopen
  split
  · refine .ite (.one (.gate e _ ⟨.inl rfl, fun hc => .inl hc⟩)) (.after (moves_notice ..) ?_)
    exact .one (.gate e _ ⟨.inl rfl, fun hc => absurd rfl hc⟩)
  · exact .refl e

theorem Gate.withCfg_limit (g : Gate) (v : Word) : 1 ≤ (g.withCfg v).tripLimit ∧ (g.withCfg v).tripLimit ≤ 15 := by
  simp only [Gate.withCfg, clampTo]; omega

theorem moves_gateConfigure (e : Ev) (v : Word) : Moves true e (e.gateConfigure v) := by
  unfold Ev.gateConfigure
  dsimp only
  have m : Moves true e { e with gate := e.gate.withCfg v } :=
    .one (.gate e _ ⟨.inr (e.gate.withCfg_limit v), fun hc => .inl hc⟩)
  split
  · rename_i h
    refine m.trans (moves_latch _ (.inl ?_))
    show e.gate.st ≠ _
    rcases h.2.2 with h | h <;> rw [h] <;> decide
  · exact m

theorem moves_lineAssert (e : Ev) : Moves true e e.lineAssert := by
  unfold Ev.lineAssert
  dsimp only
  have m : Moves true e { e with gate := e.gate.lineAsserted } := .one (.gate e _ ⟨.inl rfl, fun hc => .inl hc⟩)
  exact .ite (m.trans (moves_tripInput ..)) m

theorem moves_filterExpires (e : Ev) : Moves true e e.filterExpires :=
  .ite (.after (moves_tripInput ..) (.one (.gate e _ ⟨.inl rfl, fun hc => .inl hc⟩))) (.refl e)

/-! ## Media Engine (chapter 5) -/

theorem Media.takeJob_keeps (m : Media) (j : Job) :
    (m.takeJob j).seq = m.seq ∧ (m.takeJob j).opTimeout = m.opTimeout ∧ (m.takeJob j).readRetries = m.readRetries
      ∧ (m.takeJob j).relocLevel = m.relocLevel := by
  unfold Media.takeJob; split <;> exact ⟨rfl, rfl, rfl, rfl⟩

theorem moves_patrol_to {a b : Ev} (c : Ev) (m : Moves ctl a b) (h : c = { b with patrol := c.patrol })
    (hb : c.patrol.burst = b.patrol.burst) (hi : c.patrol.interval = b.patrol.interval) : Moves ctl a c := by
  rw [h]; exact m.trans (.one (.patrol b _ ⟨hb, hi⟩))

theorem moves_issue (e : Ev) (j : Job) (h : e.gate.st = .opened) : Moves ctl e (e.issue j) := by
  have hk := e.media.takeJob_cfg j
  refine moves_patrol_to _ (Moves.one (.media e (e.issue j).media ⟨⟨?_, ?_, ?_⟩, fun _ => .inr h⟩)) rfl rfl rfl
  · exact hk.1
  · exact hk.2.1
  · exact hk.2.2

theorem moves_opIssue? (e e' : Ev) (h : e.opIssue? = some e') : Moves ctl e e' := by
  unfold Ev.opIssue? at h
  split at h
  · rename_i hc
    simp only [Bool.and_eq_true, beq_iff_eq] at hc
    obtain ⟨j, _, rfl⟩ := Option.map_eq_some_iff.mp h
    exact moves_issue e j hc.2
  · cases h

theorem moves_levelTests (e : Ev) (n : Lba) (p : Bool) : Moves ctl e (e.levelTests n p) :=
  .ite (moves_suspectClear ..) (moves_relocateRequest ..)

end Sys2Proof.Machine
end

