-- ==== Sys2Proof/Laws/MovesPatrol.lean ====
section
/-! SUPPORT. Laws/MovesPatrol.lean: the operations of the Patrol Unit are chains of moves. -/

namespace Sys2Proof.Machine

-- One theorem after another: fewer threads, and so less memory, while the file compiles.
set_option Elab.async false

open Sys2Proof

variable {ctl : Bool}

/-! ## Patrol Unit (chapter 8) -/

theorem moves_patrol_same (e : Ev) (p : Patrol) (hb : p.burst = e.patrol.burst := by rfl)
    (hi : p.interval = e.patrol.interval := by rfl) : Moves ctl e { e with patrol := p } := .one (.patrol e p ⟨hb, hi⟩)

theorem moves_patrolJob (e : Ev) : Moves ctl e e.patrolJob := .after (moves_addJob ..) (moves_patrol_same e _)

/-- What the tests answer is reached by moves. -/
def Between.Reached (ctl : Bool) (e : Ev) : Between → Prop
  | .rest e1 => Moves ctl e e1
  | .take e1 => Moves ctl e e1

theorem Between.Reached.after {a b : Ev} {x : Between} (h : x.Reached ctl b) (m : Moves ctl a b) : x.Reached ctl a := by
  cases x <;> exact m.trans h

theorem reached_burstEnds (e : Ev) : e.burstEnds.Reached ctl e := by
  unfold Ev.burstEnds
  split <;> exact moves_patrol_same e _

theorem reached_passEnds (e : Ev) : e.passEnds.Reached ctl e := by
  unfold Ev.passEnds
  dsimp only
  split
  · exact .after (reached_burstEnds _) (.after (moves_patrol_same _ _) (moves_notice ..))
  · exact .after (moves_patrol_same _ _) (moves_notice ..)

theorem reached_between (e : Ev) : e.between.Reached ctl e := by
  unfold Ev.between
  split
  · exact reached_passEnds e
  · split
    · exact reached_burstEnds e
    · split
      · exact moves_patrol_same e _
      · exact .refl e

theorem moves_patrolWalk (k : Nat) (e : Ev) : Moves ctl e (e.patrolWalk k) := by
  induction k generalizing e with
  | zero => exact .after (moves_marks _ _ _) (moves_patrol_same e _)
  | succ k ih =>
    unfold Ev.patrolWalk
    refine .ite ?_ (moves_patrolJob e)
    have h := (reached_between (ctl := ctl) { e with patrol := e.patrol.passBlock }).after (moves_patrol_same e _)
    cases hb : Ev.between { e with patrol := e.patrol.passBlock } with
    | rest e1 => rw [hb] at h; exact h
    | take e1 => rw [hb] at h; exact h.trans (ih e1)

theorem moves_patrolTake (e : Ev) : Moves ctl e e.patrolTake := moves_patrolWalk ..

theorem moves_patrolNext (e : Ev) : Moves ctl e e.patrolNext := by
  unfold Ev.patrolNext
  have h := reached_between (ctl := ctl) e
  cases hb : e.between with
  | rest e1 => rw [hb] at h; exact h
  | take e1 => rw [hb] at h; exact h.trans (moves_patrolTake e1)

theorem moves_patrolGoOn (e : Ev) : Moves ctl e e.patrolGoOn := .ite (moves_patrolNext e) (moves_patrolTake e)

theorem moves_patrolBurst (e : Ev) : Moves ctl e e.patrolBurst := .after (moves_patrolTake _) (moves_patrol_same e _)

theorem moves_patrolEnded (e : Ev) : Moves ctl e e.patrolEnded := by
  unfold Ev.patrolEnded
  dsimp only
  have m : Moves ctl e { e with patrol := e.patrol.passBlock } := moves_patrol_same e _
  refine .ite (.ite (.after (moves_patrolBurst _) (moves_patrol_to _ m rfl rfl rfl)) ?_) (.after (moves_patrolNext _) m)
  have m' := Moves.ite (c := e.patrol.passBlock.last < e.patrol.passBlock.pos)
    (.after (moves_notice _ (.patrolPassDone e.patrol.passBlock.last)) m) m
  exact moves_patrol_to _ m' rfl rfl rfl

theorem moves_patrolApply (e : Ev) (n : Lba) (o : JobOutcome) : Moves ctl e (e.patrolApply n o) := by
  cases o with
  | good p d => exact moves_levelTests ..
  | failed => exact moves_suspectAdd ..
  | retry j => exact .refl e

theorem moves_patrolLate (e : Ev) (n : Lba) (o : JobOutcome) : Moves ctl e (e.patrolLate n o) := by
  unfold Ev.patrolLate
  split
  · exact .refl e
  · exact .after (moves_patrol_same _ _) (moves_patrolApply ..)
  · exact .after (moves_patrol_same _ _) (moves_patrolApply ..)

theorem moves_patrolResume? (e e' : Ev) (h : e.patrolResume? = some e') : Moves ctl e e' := by
  unfold Ev.patrolResume? at h
  split at h
  · cases h; exact moves_patrolGoOn e
  · cases h

theorem moves_intervalExpires (e : Ev) : Moves ctl e e.intervalExpires :=
  .ite (.after (moves_patrolGoOn _) (moves_patrol_same e _)) (.refl e)

theorem moves_patrolEnable (e : Ev) : Moves ctl e e.patrolEnable := by
  unfold Ev.patrolEnable
  exact .ite (.ite (.ite (moves_patrol_same e _) (.after (moves_patrolBurst _) (moves_patrol_same e _)))
    (moves_patrol_same e _)) (.refl e)

theorem moves_patrolDisable (e : Ev) : Moves ctl e e.patrolDisable :=
  .ite (moves_patrol_same e _) (moves_patrol_to _ (moves_media e { e.media with patrolQ := [] } ⟨rfl, rfl, rfl⟩ id) rfl rfl rfl)

theorem moves_patrolOffPrepare (e : Ev) : Moves ctl e e.patrolOffPrepare :=
  moves_patrol_to _ (moves_media e e.patrolOffPrepare.media ⟨rfl, rfl, rfl⟩
    (fun h => by simpa [Ev.patrolOffPrepare, Media.detachPatrol, Option.isSome_map] using h)) rfl rfl rfl

theorem moves_patrolOffQuiesce (e : Ev) : Moves ctl e e.patrolOffQuiesce :=
  moves_patrol_to _ (moves_media e e.patrolOffQuiesce.media ⟨rfl, rfl, rfl⟩
    (fun h => by simpa [Ev.patrolOffQuiesce, Media.detachPatrol, Option.isSome_map] using h)) rfl rfl rfl

end Sys2Proof.Machine
end

