-- ==== Sys2Proof/Laws/MovesTable.lean ====
section
/-! SUPPORT. Laws/MovesTable.lean: the operations of the Table Store, and the handling of a response, are chains of moves. -/

namespace Sys2Proof.Machine

open Sys2Proof

variable {ctl : Bool}

/-! ## Table Store (chapter 9) -/

theorem moves_store_to {a b : Ev} (c : Ev) (m : Moves ctl a b) (h : c = { b with store := c.store })
    (hr : c.store.run = b.store.run) (ht : c.store.ret = b.store.ret) : Moves ctl a c := by
  rw [h]; exact m.trans (.one (.store b _ hr ht))

theorem moves_run_to {a b : Ev} (c : Ev) (m : Moves true a b) (h : c = { b with store := c.store })
    (hs : StoreStep b c.store) : Moves true a c := by
  rw [h]; exact m.trans (.one (.run b _ hs))

theorem Store.setCopy_keeps (s : Store) (c : Copy) (x : CopyStatus) :
    (s.setCopy c x).run = s.run ∧ (s.setCopy c x).ret = s.ret := by
  cases c <;> exact ⟨rfl, rfl⟩

theorem moves_tableWrite (e : Ev) (c : Copy) (k : Nat) : Moves ctl e (e.tableWrite c k) := moves_addJob ..

theorem moves_tableRead (e : Ev) (c : Copy) (k : Nat) : Moves ctl e (e.tableRead c k) := moves_addJob ..

theorem Rpr.cover_queue (r : Rpr) : r.cover.queue = r.queue := rfl

theorem moves_commitStart (e : Ev) : Moves ctl e e.commitStart := by
  unfold Ev.commitStart
  dsimp only
  have k := e.store.setCopy_keeps e.store.target .inWrite
  exact .after (moves_tableWrite ..)
    (moves_store_to _ (moves_rpr_same e e.rpr.cover rfl) rfl k.1 k.2)

theorem moves_commitStart? (e e' : Ev) (h : e.commitStart? = some e') : Moves ctl e e' := by
  unfold Ev.commitStart? at h
  split at h
  · cases h; exact moves_commitStart e
  · cases h

theorem moves_endCommitWait (e : Ev) (w : ActiveRepair → Bool) : Moves ctl e (e.endCommitWait w) := by
  unfold Ev.endCommitWait
  split
  · exact .ite (moves_repairMapped ..) (.refl e)
  · exact .refl e

theorem moves_commitGood (e : Ev) (c : Commit) : Moves ctl e (e.commitGood c) := by
  unfold Ev.commitGood
  dsimp only
  refine .after (moves_endCommitWait ..) (.after (moves_notice ..) (moves_store_same e _ ?_ ?_))
  · exact (e.store.setCopy_keeps _ _).1
  · exact (e.store.setCopy_keeps _ _).2

theorem moves_commitFault (e : Ev) (c : Commit) : Moves ctl e (e.commitFault c) := by
  unfold Ev.commitFault
  dsimp only
  refine .after (moves_endCommitWait ..) (.after (moves_notice ..) (moves_store_same e _ ?_ ?_))
  · exact (e.store.setCopy_keeps _ _).1
  · exact (e.store.setCopy_keeps _ _).2

theorem moves_genLimit? (e e' : Ev) (h : e.genLimit? = some e') : Moves ctl e e' := by
  unfold Ev.genLimit? at h
  split at h
  · split at h
    · split at h
      · cases h; exact moves_endCommitWait ..
      · cases h
    · cases h; exact moves_store_same e _ rfl rfl
  · cases h

theorem moves_prepareCopy (e : Ev) (c : Copy) (g : Nat) (a : Bool) : Moves ctl e (e.prepareCopy c g a) := by
  unfold Ev.prepareCopy
  refine .after (moves_tableWrite ..) (moves_store_same e _ ?_ ?_)
  · exact (e.store.setCopy_keeps _ _).1
  · exact (e.store.setCopy_keeps _ _).2

theorem moves_prepareBegin (e : Ev) (s : Nat) : Moves ctl e (e.prepareBegin s) := by
  unfold Ev.prepareBegin
  dsimp only
  have m : Moves ctl e _ := (moves_patrolOffPrepare e).trans (.foldl (f := Ev.freeSlot) (fun e i => moves_freeSlot e i)
    (e.patrolOffPrepare.buf.slotsWith (·.st == .clean)) e.patrolOffPrepare)
  exact .after (moves_prepareCopy ..) (moves_store_to _
    (m.trans (moves_trans_same _ (Trans.prepared _ _ s))) rfl rfl rfl)

theorem Store.runsIn_step (e : Ev) (r : RunState) (hr : r ≠ .starting) (st : Store)
    (h1 : st.run = (e.store.runsIn r).run) (h2 : st.ret = (e.store.runsIn r).ret) : StoreStep e st := by
  unfold Store.runsIn at h1 h2
  split at h1
  · rename_i hq
    rw [if_pos hq] at h2
    refine ⟨fun h => .inl (by rw [h1] at h; exact h), fun h => ?_⟩
    rw [h2] at h
    exact absurd (Option.some.inj h) hr
  · rename_i hq
    rw [if_neg hq] at h2
    exact ⟨fun h => absurd (by rw [h1] at h; exact h) hr, fun h => by rw [h2] at h; exact h⟩

theorem moves_prepareEnds (e : Ev) (a b : Bool) : Moves true e (e.prepareEnds a b) := by
  unfold Ev.prepareEnds
  refine .ite (.after (moves_spareLowOnTables _) (.one (.run e _ ?_)))
    (.after (.one (.run _ _ ?_)) (moves_trans_same e e.trans.noTables))
  · exact Store.runsIn_step e .ready (by decide) _ rfl rfl
  · exact Store.runsIn_step { e with trans := e.trans.noTables } .unprepared (by decide) _ rfl rfl

theorem moves_prepareCompletes (e : Ev) (st : Status) : Moves ctl e (e.prepareCompletes st) :=
  .foldl (fun e t => moves_complete e t st 0) _ e

theorem moves_prepareCopyEnds (e : Ev) (p : Prep) (ok : Bool) : Moves true e (e.prepareCopyEnds p ok) := by
  unfold Ev.prepareCopyEnds
  split
  · exact .after (moves_prepareCopy ..) (moves_store_same e _ rfl rfl)
  · exact .after (moves_prepareCompletes ..) (.after (moves_prepareEnds ..) (moves_store_same e _ rfl rfl))

theorem moves_store_run (e : Ev) (st : Store) (hr : st.run ≠ .starting) (ht : st.ret = e.store.ret := by rfl) :
    Moves true e { e with store := st } := .one (.run e st ⟨fun h => absurd h hr, fun h => ht ▸ h⟩)

theorem moves_loadBegins (e : Ev) : Moves true e e.loadBegins := by
  unfold Ev.loadBegins
  dsimp only
  refine .after (moves_tableRead ..) (.ite (.after (moves_tripInput ..) ?_) ?_)
  · exact moves_store_run e _ (fun h => by cases h)
  · exact moves_store_run e _ (fun h => by cases h)

theorem moves_identified (e : Ev) (p n : Nat) : Moves true e (e.identified p n) := by
  unfold Ev.identified
  dsimp only
  have m : Moves true e { e with media.identTimer := false, media.cap := some p } := moves_media e _ ⟨rfl, rfl, rfl⟩ id
  exact .ite (m.trans (moves_loadBegins _)) (m.trans (moves_store_run _ _ (fun h => by cases h)))

theorem moves_loadTakes (e : Ev) (c : Copy) (img : Image) (v : Verdict) (a b : CopyStatus) (f : Bool) :
    Moves true e (e.loadTakes c img v a b f) := by
  unfold Ev.loadTakes
  dsimp only
  exact .after (moves_spareLowOnTables _) (.after (moves_notice ..) (.after (moves_store_run _ _ (fun h => by cases h))
    (moves_trans_same e (e.trans.ofImage img))))

theorem moves_loadTakesNone (e : Ev) (v : Verdict) : Moves true e (e.loadTakesNone v) :=
  .after (moves_notice ..) (moves_store_run e _ (fun h => by cases h))

theorem moves_loadDecides (e : Ev) (a b : Option Image) (m : Bool) : Moves true e (e.loadDecides a b m) := by
  unfold Ev.loadDecides
  split
  · exact .ite (moves_loadTakes ..) (.ite (moves_loadTakes ..) (moves_loadTakes ..))
  · exact moves_loadTakes ..
  · exact moves_loadTakes ..
  · exact moves_loadTakesNone ..

theorem moves_copyRead (e : Ev) (l : Load) (img : Option Image) : Moves true e (e.copyRead l img) := by
  unfold Ev.copyRead
  dsimp only
  split
  · exact .after (moves_tableRead ..) (moves_store_same e _ rfl rfl)
  · exact moves_loadDecides ..

theorem moves_loadBlock (e : Ev) (l : Load) (d : BlockData) : Moves true e (e.loadBlock l d) := by
  unfold Ev.loadBlock
  dsimp only
  have m : Moves true e { e with store.staging := e.store.staging ++ [d] } := moves_store_same e _ rfl rfl
  exact .ite (.after (moves_tableRead ..) (moves_store_to _ m rfl rfl rfl)) (.after (moves_copyRead ..) m)

theorem moves_commitBlock (e : Ev) (c : Commit) : Moves ctl e (e.commitBlock c) :=
  .ite (.after (moves_tableWrite ..) (moves_store_same e _ rfl rfl)) (moves_commitGood ..)

theorem moves_prepareBlock (e : Ev) (p : Prep) : Moves true e (e.prepareBlock p) :=
  .ite (.after (moves_tableWrite ..) (moves_store_same e _ rfl rfl)) (moves_prepareCopyEnds ..)

theorem moves_tableOutcome (e : Ev) (o : JobOutcome) : Moves true e (e.tableOutcome o) := by
  unfold Ev.tableOutcome
  split
  · exact .refl e
  · split
    · exact moves_loadBlock ..
    · exact moves_commitBlock ..
    · exact moves_prepareBlock ..
    · exact .refl e
  · split
    · exact moves_copyRead ..
    · exact moves_commitFault ..
    · exact moves_prepareCopyEnds ..
    · exact .refl e

/-! ## Responses (sections 5.6 and 5.7) -/

theorem moves_loadOutcome (e : Ev) (i : SlotIx) (n : Lba) (o : JobOutcome) : Moves ctl e (e.loadOutcome i n o) := by
  cases o with
  | good p d => exact .after (moves_loadGood ..) (.after (moves_levelTests ..) (moves_placeLoad ..))
  | failed => exact moves_loadFailed ..
  | retry j => exact .refl e

theorem moves_verifyOutcome (e : Ev) (t : Tag) (n : Lba) (o : JobOutcome) : Moves ctl e (e.verifyOutcome t n o) := by
  cases o with
  | good p d => exact .after (moves_verifyAdvance ..) (.after (moves_blockDone ..) (moves_levelTests ..))
  | failed => exact .after (moves_verifyFails ..) (moves_suspectAdd ..)
  | retry j => exact .refl e

theorem moves_writeOutcome (e : Ev) (j : Job) (i : SlotIx) (n : Lba) (o : JobOutcome) :
    Moves ctl e (e.writeOutcome j i n o) := by
  cases o with
  | good p d =>
    unfold Ev.writeOutcome
    dsimp only
    split
    · exact .ite (moves_requeue ..) (moves_writeJobGood ..)
    · exact .ite (.after (moves_writeJobGood ..) (moves_suspectClear ..)) (moves_writeJobFault ..)
  | failed => exact moves_writeJobFault ..
  | retry j => exact .refl e

theorem moves_repairOutcome (e : Ev) (k : JobKind) (o : JobOutcome) : Moves ctl e (e.repairOutcome k o) := by
  unfold Ev.repairOutcome
  split
  · split
    · refine .after (moves_repairReserve ..) (.ite (.after (moves_suspectClear ..) ?_) ?_)
      · exact moves_rpr_same e _ rfl
      · exact moves_rpr_same e _ rfl
    · exact .after (moves_relocationFailed ..) (moves_suspectAdd ..)
    · exact moves_spareWritten ..
    · exact moves_sparePassed ..
    · exact moves_spareFailed ..
    · exact moves_spareFailed ..
    · exact moves_spareFailed ..
    · exact .refl e
  · exact .refl e

theorem moves_routeOutcome (e : Ev) (j : Job) (o : JobOutcome) : Moves true e (e.routeOutcome j o) := by
  unfold Ev.routeOutcome
  dsimp only
  split
  · exact moves_loadOutcome ..
  · exact moves_loadOutcome ..
  · exact moves_verifyOutcome ..
  · exact moves_writeOutcome ..
  · exact moves_writeOutcome ..
  · exact .refl e
  · exact moves_repairOutcome ..
  · split
    · exact .refl e
    · exact .after (moves_patrolEnded _) (moves_patrolApply ..)
    · exact .after (moves_patrolEnded _) (moves_patrolApply ..)
  · exact moves_tableOutcome ..

theorem moves_jobAnswered (e : Ev) (j : Job) (b : Body) : Moves true e (e.jobAnswered j b) := by
  unfold Ev.jobAnswered
  split
  · exact moves_requeue ..
  · exact moves_routeOutcome ..
  · exact moves_routeOutcome ..

theorem moves_orphanAnswered (e : Ev) (j : Job) (b : Body) (o : Orphan) : Moves ctl e (e.orphanAnswered j b o) := by
  cases o with
  | applyNothing => exact .refl e
  | patrolQuiesce => exact moves_patrolLate ..

theorem moves_noTrips (e : Ev) : Moves true e { e with gate.trips := 0 } := .one (.gate e _ ⟨.inl rfl, fun hc => .inl hc⟩)

theorem moves_identifyAnswered (e : Ev) (b : Body) : Moves true e (e.identifyAnswered b) := by
  cases b with
  | goodIdentify p n => exact .after (moves_identified ..) (moves_noTrips e)
  | _ => exact .refl e

theorem moves_idleLink (e : Ev) : Moves ctl e { e with media.link := none, media.opTimer := none } :=
  moves_media e _ ⟨rfl, rfl, rfl⟩ (fun h => by cases h)

theorem moves_answered (e : Ev) (o : Outstanding) (b : Body) : Moves true e (e.answered o b) := by
  unfold Ev.answered
  split
  · exact .after (moves_identifyAnswered ..) (moves_idleLink e)
  · refine .ite (.after (moves_tripInput ..) (moves_abandonOp e)) ?_
    dsimp only
    have m : Moves true e { e with media.link := none, media.opTimer := none, gate.trips := 0 } :=
      (moves_idleLink e).trans (moves_noTrips _)
    split
    · exact m.trans (moves_orphanAnswered ..)
    · exact m.trans (moves_jobAnswered ..)

end Sys2Proof.Machine
end

