-- ==== Sys2Proof/Laws/MovesEvent.lean ====
section
/-! SUPPORT. Laws/MovesEvent.lean: CONTROL, submission, start, binding, abort, the end of a block at a port, and the
internal steps are chains of moves; so is what an event does before it ends. -/

namespace Sys2Proof.Machine

open Sys2Proof

variable {ctl : Bool}

/-! ## Entry to QUIESCE, DISCARD, the end of a quiesce, CONTROL -/

theorem moves_ports_to {a b : Ev} (c : Ev) (m : Moves ctl a b) (h : c = { b with ports := c.ports }) : Moves ctl a c := by
  rw [h]; exact m.trans (.one (.ports b _))

theorem moves_rpr_to {a b : Ev} (c : Ev) (m : Moves ctl a b) (h : c = { b with rpr := c.rpr })
    (hk : (b.rpr.queue.map (·.lba)).Nodup → (c.rpr.queue.map (·.lba)).Nodup) : Moves ctl a c := by
  rw [h]; exact m.trans (.one (.rpr b _ hk))

theorem moves_waiting_to {a b : Ev} (c : Ev) (m : Moves ctl a b)
    (h : c = { b with buf.allocQ := c.buf.allocQ, buf.flush := c.buf.flush, buf.lost := c.buf.lost }) : Moves ctl a c := by
  rw [h]; exact m.trans (moves_waiting b _ _ _)

theorem moves_media_to {a b : Ev} (c : Ev) (m : Moves ctl a b) (h : c = { b with media := c.media })
    (hc : b.media.SameCfg c.media) (hl : c.media.link.isSome = true → b.media.link.isSome = true) : Moves ctl a c := by
  rw [h]; exact m.trans (moves_media b _ hc hl)

theorem moves_abandonCommands (e : Ev) : Moves true e e.abandonCommands := by
  have h1 : Moves true e { e with cmd.tags := e.cmd.tags.map TagRec.abandon, cmd.order := [] } := .one (.abandon e)
  have h2 := moves_ports_to (a := e) { e with
    cmd.tags := e.cmd.tags.map TagRec.abandon, cmd.order := [],
    ports.p0.bound := none, ports.p1.bound := none, ports.wait := [] } h1 rfl
  have h3 := moves_rpr_to (a := e) { e with
    cmd.tags := e.cmd.tags.map TagRec.abandon, cmd.order := [],
    ports.p0.bound := none, ports.p1.bound := none, ports.wait := [],
    rpr.wait := [], rpr.queue := e.rpr.queue.map RepairEntry.bare } h2 rfl
    (fun h => by rw [List.map_map]; exact h)
  exact moves_waiting_to _ h3 rfl

theorem moves_quiesceSlots (e : Ev) : Moves ctl e e.quiesceSlots := .foldl (fun e i => moves_setSlot e i _) _ e

theorem moves_discardSlots (e : Ev) : Moves ctl e e.discardSlots :=
  moves_waiting_to _ (.foldl (f := Ev.freeSlot) moves_freeSlot _ e) rfl

theorem moves_discardRepairs (e : Ev) : Moves ctl e e.discardRepairs := by
  unfold Ev.discardRepairs
  dsimp only
  split
  · exact moves_rpr_to _ (moves_returnSpare e _) rfl (fun _ => List.nodup_nil)
  · exact moves_rpr_to _ (.refl e) rfl (fun _ => List.nodup_nil)

theorem moves_discardTables (e : Ev) : Moves true e e.discardTables := by
  unfold Ev.discardTables
  split
  · exact moves_store_to _ (.refl e) rfl (e.store.setCopy_keeps _ _).1 (e.store.setCopy_keeps _ _).2
  · exact .after (moves_prepareEnds ..)
      (moves_store_same e _ (e.store.setCopy_keeps _ _).1 (e.store.setCopy_keeps _ _).2)
  · exact .refl e

theorem moves_discardNow (e : Ev) : Moves true e e.discardNow := by
  have h1 : Moves true e _ := (moves_discardSlots e).trans (moves_discardRepairs _)
  have h2 := h1.trans (moves_media _ e.discardSlots.discardRepairs.media.discarded ⟨rfl, rfl, rfl⟩ (fun h => by cases h))
  exact moves_store_to _ (h2.trans (moves_discardTables _)) rfl rfl rfl

theorem Media.quiesced_cfg (m : Media) : m.SameCfg m.quiesced := by
  unfold Media.quiesced
  dsimp only
  split
  · exact ⟨rfl, rfl, rfl⟩
  · split
    · exact ⟨rfl, rfl, rfl⟩
    · split <;> exact ⟨rfl, rfl, rfl⟩

theorem Media.quiesced_link (m : Media) (h : m.quiesced.link.isSome = true) : m.link.isSome = true := by
  unfold Media.quiesced at h
  dsimp only at h
  split at h
  · exact h
  · rename_i o ho
    rw [ho]; rfl

theorem moves_enterQuiesce (e : Ev) (h : e.store.run ≠ .starting) : Moves true e e.enterQuiesce := by
  unfold Ev.enterQuiesce
  dsimp only
  have h1 : Moves true e { e.abandonCommands with
      store := { e.store with run := .quiesce, ret := some e.store.run, discarded := false } } := by
    refine moves_run_to _ (moves_abandonCommands e) rfl ⟨fun hs => (by cases hs), fun hr => ?_⟩
    exact absurd (Option.some.inj hr) h
  have h2 := h1.trans (moves_patrolOffQuiesce _)
  have h3 := h2.trans (moves_media _ _ (Media.quiesced_cfg _) (Media.quiesced_link _))
  have h4 := h3.trans (moves_quiesceSlots _)
  exact .ite (h4.trans (moves_discardNow _)) (.ite (h4.trans (moves_failFast _)) (h4.trans (moves_repairWake _)))

theorem moves_softResetRequest (e : Ev) : Moves true e e.softResetRequest := by
  unfold Ev.softResetRequest
  split
  · rename_i h; exact moves_enterQuiesce e (by rw [h]; decide)
  · rename_i h; exact moves_enterQuiesce e (by rw [h]; decide)
  all_goals exact .refl e

theorem StoreStep.returns {e : Ev} {st : Store} (hr : st.run = e.store.ret.getD .ready) (ht : st.ret = none) :
    StoreStep e st := by
  refine ⟨fun h => .inr ?_, fun h => by rw [ht] at h; cases h⟩
  rw [hr] at h
  cases hq : e.store.ret with
  | none => rw [hq] at h; cases h
  | some r => rw [hq] at h; exact congrArg some h

theorem moves_quiesceEnds (e : Ev) : Moves true e e.quiesceEnds := by
  have h1 : Moves true e _ := .one (.clear e)
  have h2 := h1.trans (.one (.gate _ { e.gate with refused := false } ⟨.inl rfl, fun hc => .inl hc⟩))
  have h3 := h2.trans (.one (.patrol _ { e.patrol with badWindow := false } ⟨rfl, rfl⟩))
  have h4 := h3.trans (.one (.ports _ { e.ports with
    p0 := { e.ports.p0 with empty := false }, p1 := { e.ports.p1 with empty := false } }))
  have h5 := h4.trans (.one (.bus _ { e.bus with
    stageEn := false, patrolCont := false, reportIe := false, portIe := false, discard := false } rfl))
  exact moves_run_to _ h5 rfl (.returns rfl rfl)

theorem moves_quiesceEnd? (e e' : Ev) (h : e.quiesceEnd? = some e') : Moves true e e' := by
  unfold Ev.quiesceEnd? at h
  split at h
  · cases h; exact moves_quiesceEnds e
  · cases h

theorem moves_controlDiscard (e : Ev) (v : Word) (r : RunState) : Moves true e (e.controlDiscard v r) := by
  unfold Ev.controlDiscard
  exact .ite (moves_discardNow _) (.refl _)

theorem moves_controlReopen (e : Ev) (v : Word) : Moves true e (e.controlReopen v) := by
  unfold Ev.controlReopen
  exact .ite (moves_reopen _) (.refl _)

theorem moves_controlPatrol (e : Ev) (v : Word) : Moves true e (e.controlPatrol v) := by
  unfold Ev.controlPatrol
  exact .ite (.ite (.refl _) (moves_patrolEnable _)) (.ite (moves_patrolDisable _) (.refl _))

theorem moves_controlReset (e : Ev) (v : Word) : Moves true e (e.controlReset v) := by
  unfold Ev.controlReset
  exact .ite (moves_softResetRequest _) (.refl _)

theorem moves_controlWrite (v : Word) (e : Ev) : Moves true e (e.controlWrite v) :=
  .after (moves_controlDiscard _ v _) (.after (moves_controlReset _ v) (.after (moves_controlPatrol _ v)
    (.after (moves_controlReopen _ v) (.one (.bus e _ rfl)))))

/-! ## Submission, start, binding, abort -/

theorem moves_releasePinned (e : Ev) (t : Tag) : Moves ctl e (e.releasePinned t) := by
  unfold Ev.releasePinned
  dsimp only
  split
  · exact .ite ((moves_freeSlot e _).trans (moves_complete ..)) (moves_complete ..)
  · exact moves_complete ..

theorem moves_clearSuspect (e : Ev) (t : Tag) : Moves ctl e (e.clearSuspect t) :=
  .ite (.after (moves_complete ..) (moves_tables e _)) (moves_complete ..)

theorem moves_startCommand (e : Ev) (t : Tag) : Moves ctl e (e.startCommand t) := by
  unfold Ev.startCommand
  split
  · exact .one (.ports e _)
  · exact .one (.ports e _)
  · exact (moves_activate e t).trans (moves_verifyAdvance _ t)
  · exact moves_activate e t
  · exact (moves_activate e t).trans (moves_rpr_same _ _ rfl)
  · exact (moves_activate e t).trans (moves_releasePinned _ t)
  · exact (moves_activate e t).trans (moves_clearSuspect _ t)
  · exact (moves_activate e t).trans (moves_prepareBegin _ _)
  · exact .refl e

theorem moves_commandStart? (e e' : Ev) (h : e.commandStart? = some e') : Moves ctl e e' := by
  obtain ⟨t, _, rfl⟩ := Option.map_eq_some_iff.mp h
  exact moves_startCommand e t

theorem moves_bind (e : Ev) (t : Tag) (i : PortId) : Moves ctl e (e.bind t i) :=
  .ite ((moves_activate e t).trans (.after (moves_fillRequest ..) (.one (.ports _ _))))
    ((moves_activate e t).trans (.one (.ports _ _)))

theorem moves_portBinding? (e e' : Ev) (h : e.portBinding? = some e') : Moves ctl e e' := by
  unfold Ev.portBinding? at h
  obtain ⟨_, t, _, _, ht, _⟩ := List.findSome?_eq_some_iff.mp h
  obtain ⟨i, _, rfl⟩ := Option.map_eq_some_iff.mp ht
  exact moves_bind e t i

theorem moves_abortQueued (e : Ev) (t : Tag) : Moves ctl e (e.abortQueued t) :=
  .after (moves_complete ..) (moves_ports_to _ (moves_dropSet e t) rfl)

theorem Media.orphanVerify_link (m : Media) (t : Tag) (h : (m.orphanVerify t).link.isSome = true) :
    m.link.isSome = true := by
  simpa [Media.orphanVerify, Option.isSome_map] using h

theorem Ev.stopFilling_cmd (e : Ev) (t : Tag) : (e.stopFilling t).cmd = e.cmd := by
  have hf : ∀ (l : List SlotIx) (e : Ev), (l.foldl Ev.freeSlot e).cmd = e.cmd := by
    intro l
    induction l with
    | nil => intro e; rfl
    | cons x l ih => intro e; exact ih _
  exact hf _ e

theorem moves_abortWrite (e : Ev) (t : Tag) (h : (e.cmd.tag t).st = .active) : Moves ctl e (e.abortWrite t) := by
  refine ((moves_stopFilling e t).trans (.one (.tag _ t _ ⟨?_, ?_⟩))).trans (moves_writeCheck _ 0 t)
  · rw [Ev.stopFilling_cmd]; simp [TagRec.owed, h]
  · rw [Ev.stopFilling_cmd]; simp [h]

theorem moves_abortActive (e : Ev) (t : Tag) (h : (e.cmd.tag t).st = .active) : Moves ctl e (e.abortActive t) := by
  unfold Ev.abortActive
  dsimp only
  split
  · exact (moves_release e t).trans (moves_complete ..)
  · exact .after (moves_complete ..)
      (moves_media_to _ (moves_dropVerifies e t) rfl ⟨rfl, rfl, rfl⟩ (Media.orphanVerify_link _ t))
  · exact moves_abortWrite e t h
  · exact (moves_dropSet e t).trans (moves_complete ..)
  · refine .after (moves_complete ..) (moves_rpr_same e _ ?_)
    dsimp only
    rw [List.map_map]
    congr 1
    funext x
    simp only [Function.comp, RepairEntry.dropRelocate]
    split <;> rfl
  all_goals exact .refl e

theorem State.tests_ok (s : State) (o : Opcode) (t : Tag) (h : s.tests o = .ok t) :
    s.cmd.freeTag = some t ∧ s.rep.recs.length + s.cmd.owedCount < Config.reportPlaces := by
  unfold State.tests at h
  split at h
  · cases h
  · split at h
    · cases h
    · split at h
      · cases h
      · split at h
        · cases h
        · rename_i hq
          split at h
          · rename_i t' ht
            cases h
            refine ⟨ht, ?_⟩
            simp [State.queueFull] at hq
            omega
          · cases h

theorem moves_accept (s : State) (o : Opcode) (t : Tag) (v : Word) (h : s.tests o = .ok t) :
    Moves true s.begin (s.begin.accept o t v) := by
  have k := s.tests_ok o t h
  refine .one (.accept _ o t v k.1 ?_)
  simpa [Ev.recordSum, State.begin] using k.2

/-! ## Blocks at a port -/

theorem moves_nextBlock (e : Ev) (p : PortId) (b : Binding) : Moves ctl e (e.nextBlock p b) := .one (.ports e _)

theorem moves_blockRead (p : PortId) (b : Binding) (i : SlotIx) (e : Ev) : Moves ctl e (e.blockRead p b i) := by
  have m : Moves ctl e _ := (moves_dropClaim e b.tag i).trans (moves_blockDone _ b.tag)
  exact .ite (m.trans ((moves_unbind _ _).trans (moves_complete ..))) (m.trans (moves_nextBlock ..))

theorem moves_blockWritten (p : PortId) (b : Binding) (i : SlotIx) (e : Ev) : Moves ctl e (e.blockWritten p b i) := by
  have m : Moves ctl e _ := moves_fillComplete e b.tag i
  exact .ite (m.trans ((moves_unbind _ _).trans (moves_writeCheck ..)))
    (m.trans ((moves_nextBlock ..).trans (moves_fillRequest ..)))

/-! ## The internal steps -/

/-- Every internal step but the end of a quiesce leaves the gate, the CONTROL fields and the run state. -/
theorem moves_internal_plain (f : Ev → Option Ev) (hf : f ∈ internalSteps) (e e' : Ev) (h : f e = some e') :
    Moves ctl e e' ∨ e.quiesceEnd? = some e' := by
  simp only [internalSteps, List.mem_cons, List.not_mem_nil, or_false] at hf
  rcases hf with rfl | rfl | rfl | rfl | rfl | rfl | rfl | rfl | rfl | rfl | rfl | rfl | rfl | rfl
  · exact .inl (moves_flushComplete? e e' h)
  · exact .inl (moves_wtCreate? e e' h)
  · exact .inl (moves_destageOffer? e e' h)
  · exact .inl (moves_admissionServe? e e' h)
  · exact .inl (moves_repairActivate? e e' h)
  · exact .inl (moves_commandStart? e e' h)
  · exact .inl (moves_readLookup? e e' h)
  · exact .inl (moves_slotAlloc? e e' h)
  · exact .inl (moves_portBinding? e e' h)
  · exact .inl (moves_genLimit? e e' h)
  · exact .inl (moves_commitStart? e e' h)
  · exact .inr h
  · exact .inl (moves_opIssue? e e' h)
  · exact .inl (moves_patrolResume? e e' h)

theorem moves_internal (f : Ev → Option Ev) (hf : f ∈ internalSteps) (e e' : Ev) (h : f e = some e') :
    Moves true e e' := by
  rcases moves_internal_plain f hf e e' h with m | hq
  · exact m
  · exact moves_quiesceEnd? e e' hq

theorem moves_oneStep (e e' : Ev) (h : e.oneStep = some e') : Moves true e e' := by
  unfold Ev.oneStep at h
  obtain ⟨_, f, _, hl, hf, _⟩ := List.findSome?_eq_some_iff.mp h
  exact moves_internal f (by rw [hl]; simp) e e' hf

/-- The consequences of an event are a chain of moves. -/
theorem moves_settle (k : Nat) (e : Ev) : Moves true e (e.settle k) := by
  induction k generalizing e with
  | zero => exact .refl e
  | succ k ih =>
    unfold Ev.settle
    split
    · rename_i e1 h; exact (moves_oneStep e e1 h).trans (ih e1)
    · exact .refl e

/-- Outside QUIESCE the consequences of an event leave the gate, the CONTROL fields and the run state. -/
theorem moves_settle_plain (k : Nat) (e : Ev) (h : e.store.run ≠ .quiesce) : Moves false e (e.settle k) := by
  have keepRun : ∀ {a b : Ev}, Moves false a b → b.store.run = a.store.run := by
    intro a b m
    refine Moves.keep (P := fun x => x.store.run = a.store.run) ?_ m rfl
    intro x y mv hx
    cases mv with
    | store _ st hr ht => exact hr.trans hx
    | complete _ key t st n => unfold Ev.completeAfter; split <;> exact hx
    | note _ n => unfold Ev.notice; split <;> exact hx
    | _ => exact hx
  induction k generalizing e with
  | zero => exact .refl e
  | succ k ih =>
    unfold Ev.settle
    split
    · rename_i e1 he
      unfold Ev.oneStep at he
      obtain ⟨_, f, _, hl, hf, _⟩ := List.findSome?_eq_some_iff.mp he
      rcases moves_internal_plain (ctl := false) f (by rw [hl]; simp) e e1 hf with m | hq
      · exact m.trans (ih e1 (by rw [keepRun m]; exact h))
      · unfold Ev.quiesceEnd? State.quiesceDone at hq
        split at hq
        · rename_i hd
          simp only [Bool.and_eq_true, beq_iff_eq] at hd
          exact absurd hd.1.1.1.1.1 h
        · cases hq
    · exact .refl e

theorem moves_settled (e : Ev) : Moves true e e.settled := moves_settle _ e

/-- An event: its direct effect, then moves, then its completions join the report queue. -/
theorem State.event_eq (f : Ev → Ev) (s : State) (h : s.bus.resetLow = false) :
    s.event f = (f s.begin).close := by simp [State.event, h]

/-- With RESET_N asserted no event is taken. -/
theorem State.event_reset (f : Ev → Ev) (s : State) (h : s.bus.resetLow = true) : s.event f = s := by
  simp [State.event, h]

/-- An event is a chain of moves from its beginning, then its end. -/
theorem State.event_moves (f : Ev → Ev) (s : State) (hf : Moves true s.begin (f s.begin)) :
    s.event f = s ∨ ∃ e, Moves true s.begin e ∧ s.event f = e.finish := by
  cases h : s.bus.resetLow with
  | true => exact .inl (s.event_reset f h)
  | false => exact .inr ⟨_, hf.trans (moves_settled _), s.event_eq f h⟩

end Sys2Proof.Machine
end

