-- ==== Sys2Proof/Laws/Keeps.lean ====
section
/-! SUPPORT. Laws/Keeps.lean: what each move of an event keeps, and what a chain of moves that is no control event leaves
unchanged. -/

namespace Sys2Proof.Machine

open Sys2Proof

variable {ctl : Bool}

/-! ## What the moves leave unchanged -/

theorem Ev.completeAfter_frame (e : Ev) (k : Nat) (t : Tag) (st : Status) (n : Lba) :
    (e.completeAfter k t st n).bus = e.bus ∧ (e.completeAfter k t st n).buf = e.buf
      ∧ (e.completeAfter k t st n).trans = e.trans ∧ (e.completeAfter k t st n).rpr = e.rpr
      ∧ (e.completeAfter k t st n).media = e.media ∧ (e.completeAfter k t st n).gate = e.gate
      ∧ (e.completeAfter k t st n).patrol = e.patrol ∧ (e.completeAfter k t st n).store = e.store
      ∧ (e.completeAfter k t st n).ports = e.ports ∧ (e.completeAfter k t st n).rep = e.rep
      ∧ (e.completeAfter k t st n).pending = e.pending := by
  unfold Ev.completeAfter
  split <;> simp

theorem Ev.notice_frame (e : Ev) (n : Notice) :
    (e.notice n).bus = e.bus ∧ (e.notice n).buf = e.buf ∧ (e.notice n).trans = e.trans ∧ (e.notice n).rpr = e.rpr
      ∧ (e.notice n).media = e.media ∧ (e.notice n).gate = e.gate ∧ (e.notice n).patrol = e.patrol
      ∧ (e.notice n).store = e.store ∧ (e.notice n).ports = e.ports ∧ (e.notice n).cmd = e.cmd
      ∧ (e.notice n).posted = e.posted ∧ (e.notice n).pending = e.pending := by
  unfold Ev.notice
  split <;> simp

theorem Buf.setSlot_frame (b : Buf) (i : SlotIx) (x : Slot) :
    (b.setSlot i x).allocQ = b.allocQ ∧ (b.setSlot i x).highWater = b.highWater ∧ (b.setSlot i x).lost = b.lost
      ∧ (b.setSlot i x).slots = if i < b.slots.length then b.slots.set i x else b.slots := by
  unfold Buf.setSlot
  split <;> simp

/-- The gate, the run state with the return state, and the bus: what only a control event changes. -/
theorem Moves.plain_keeps {a b : Ev} (m : Moves false a b) :
    b.gate = a.gate ∧ b.bus = a.bus ∧ b.store.run = a.store.run ∧ b.store.ret = a.store.ret
      ∧ b.cmd.submit = a.cmd.submit ∧ b.cmd.abortRefused = a.cmd.abortRefused := by
  refine Moves.keep (P := fun x => x.gate = a.gate ∧ x.bus = a.bus ∧ x.store.run = a.store.run
    ∧ x.store.ret = a.store.ret ∧ x.cmd.submit = a.cmd.submit ∧ x.cmd.abortRefused = a.cmd.abortRefused) ?_ m
    ⟨rfl, rfl, rfl, rfl, rfl, rfl⟩
  intro x y mv hx
  cases mv with
  | store _ st hr ht => exact ⟨hx.1, hx.2.1, hr.trans hx.2.2.1, ht.trans hx.2.2.2.1, hx.2.2.2.2⟩
  | complete _ key t st n => unfold Ev.completeAfter; split <;> exact hx
  | note _ n => unfold Ev.notice; split <;> exact hx
  | _ => exact hx

/-- The queue of commands and the pins stay in an event. -/
theorem Moves.keeps_pending {a b : Ev} (m : Moves ctl a b) :
    b.pending = a.pending ∧ b.bus.resetLow = a.bus.resetLow := by
  refine Moves.keep (P := fun x => x.pending = a.pending ∧ x.bus.resetLow = a.bus.resetLow) ?_ m ⟨rfl, rfl⟩
  intro x y mv hx
  cases mv with
  | bus _ b hb => exact ⟨hx.1, hb.trans hx.2⟩
  | complete _ key t st n => unfold Ev.completeAfter; split <;> exact hx
  | note _ n => unfold Ev.notice; split <;> exact hx
  | _ => exact hx

/-! ## Configuration (Table 10-9) -/

theorem Move.keeps_config {a b : Ev} (mv : Move ctl a b) (h : a.toState.ConfigLegal) : b.toState.ConfigLegal := by
  obtain ⟨h1, h2, h3, h4, h5, h6, h7, h8⟩ := h
  cases mv with
  | slot _ i x =>
    exact ⟨h1, h2, h3, h4, by show 8 ≤ (a.buf.setSlot i x).highWater ∧ (a.buf.setSlot i x).highWater ≤ 56; rw [(a.buf.setSlot_frame i x).2.1]; exact h5,
      h6, h7, h8⟩
  | complete _ key t st n => unfold Ev.completeAfter; split <;> exact ⟨h1, h2, h3, h4, h5, h6, h7, h8⟩
  | note _ n => unfold Ev.notice; split <;> exact ⟨h1, h2, h3, h4, h5, h6, h7, h8⟩
  | trans _ t ht => exact ⟨h1, h2, h3, h4, h5, by rw [← ht] at h6; exact h6, h7, h8⟩
  | media _ m hm =>
    obtain ⟨⟨k1, k2, k3⟩, _⟩ := hm
    exact ⟨by rw [← k1] at h1; exact h1, by rw [← k2] at h2; exact h2, by rw [← k3] at h3; exact h3, h4, h5, h6, h7, h8⟩
  | patrol _ p hp =>
    exact ⟨h1, h2, h3, h4, h5, h6, by rw [← hp.1] at h7; exact h7, by rw [← hp.2] at h8; exact h8⟩
  | gate _ g hg =>
    refine ⟨h1, h2, h3, ?_, h5, h6, h7, h8⟩
    rcases hg.limit with k | k
    · rw [← k] at h4; exact h4
    · exact k
  | _ => exact ⟨h1, h2, h3, h4, h5, h6, h7, h8⟩

/-! ## The lists of the Staging Buffer (R29, R30) -/

theorem mem_moveIn (was now : Bool) (i j : SlotIx) (l : List SlotIx) (h : i ∈ l ↔ was = true) :
    j ∈ moveIn was now i l ↔ if j = i then now = true else j ∈ l := by
  unfold moveIn
  by_cases hj : j = i
  · subst hj
    cases was <;> cases now <;> simp_all
  · cases was <;> cases now <;> simp [hj]

theorem nodup_moveIn (was now : Bool) (i : SlotIx) (l : List SlotIx) (h : i ∈ l ↔ was = true) (hl : l.Nodup) :
    (moveIn was now i l).Nodup := by
  unfold moveIn
  cases was <;> cases now <;> simp_all [List.nodup_append]
  · intro a ha he; subst he; exact h ha
  · exact hl.filter _

theorem Buf.slot_setSlot (b : Buf) (i j : SlotIx) (x : Slot) (h : i < b.slots.length) :
    (b.setSlot i x).slot j = if j = i then x else b.slot j := by
  unfold Buf.slot
  rw [(b.setSlot_frame i x).2.2.2, if_pos h]
  by_cases hj : j = i
  · subst hj; simp [List.getD_eq_getElem?_getD, h]
  · rw [if_neg hj]; simp [List.getD_eq_getElem?_getD, Ne.symm hj]

theorem Buf.ListsExact.setSlot {b : Buf} (hb : b.ListsExact) (i : SlotIx) (x : Slot) : (b.setSlot i x).ListsExact := by
  by_cases h : i < b.slots.length
  · have hd : i ∈ b.destage ↔ ((b.slot i).st == .dirty) = true := by rw [hb.destageExact]; simp
    have hc : i ∈ b.clean ↔ (b.slot i).onClean = true := by rw [hb.cleanExact]; simp [Slot.onClean]
    have e1 : (b.setSlot i x).destage = moveIn ((b.slot i).st == .dirty) (x.st == .dirty) i b.destage := by
      unfold Buf.setSlot; rw [if_pos h]
    have e2 : (b.setSlot i x).clean = moveIn (b.slot i).onClean x.onClean i b.clean := by
      unfold Buf.setSlot; rw [if_pos h]
    refine ⟨?_, ?_, ?_, ?_, ?_⟩
    · rw [(b.setSlot_frame i x).2.2.2, if_pos h, List.length_set]; exact hb.size
    · rw [e1]; exact nodup_moveIn _ _ _ _ hd hb.destageOnce
    · intro j
      rw [e1, mem_moveIn _ _ _ _ _ hd, b.slot_setSlot i j x h]
      split
      · simp
      · exact hb.destageExact j
    · rw [e2]; exact nodup_moveIn _ _ _ _ hc hb.cleanOnce
    · intro j
      rw [e2, mem_moveIn _ _ _ _ _ hc, b.slot_setSlot i j x h]
      split
      · simp [Slot.onClean]
      · exact hb.cleanExact j
  · have : b.setSlot i x = b := by unfold Buf.setSlot; rw [if_neg h]
    rw [this]; exact hb

/-- The lists of a buffer rest on its slots and on the two lists alone. -/
theorem Buf.ListsExact.congr {b c : Buf} (hb : b.ListsExact) (h1 : c.slots = b.slots) (h2 : c.destage = b.destage)
    (h3 : c.clean = b.clean) : c.ListsExact := by
  have hs : ∀ i, c.slot i = b.slot i := fun i => by unfold Buf.slot; rw [h1]
  refine ⟨by rw [h1]; exact hb.size, by rw [h2]; exact hb.destageOnce, fun i => ?_, by rw [h3]; exact hb.cleanOnce,
    fun i => ?_⟩
  · rw [h2, hs]; exact hb.destageExact i
  · rw [h3, hs]; exact hb.cleanExact i

theorem Move.keeps_lists {a b : Ev} (mv : Move ctl a b) (h : a.buf.ListsExact) : b.buf.ListsExact := by
  cases mv with
  | slot _ i x => exact h.setSlot i x
  | complete _ key t st n => rw [(Ev.completeAfter_frame ..).2.1]; exact h
  | note _ n => rw [(Ev.notice_frame ..).2.1]; exact h
  | waiting _ q f n => exact h.congr rfl rfl rfl
  | accept _ o t v hf hr => exact h.congr rfl rfl rfl
  | _ => exact h

/-! ## The repair queue (R133) -/

theorem Move.keeps_repairs {a b : Ev} (mv : Move ctl a b) (h : a.toState.RepairsDistinct) :
    b.toState.RepairsDistinct := by
  cases mv with
  | complete _ key t st n => unfold State.RepairsDistinct; rw [(Ev.completeAfter_frame ..).2.2.2.1]; exact h
  | note _ n => unfold State.RepairsDistinct; rw [(Ev.notice_frame ..).2.2.2.1]; exact h
  | rpr _ r hr => exact hr h
  | _ => exact h

/-! ## The link under a closed gate (R120) -/

theorem isSome_false_of_eq_none {α : Type} {o : Option α} (h : o = none) : o.isSome = true → False := by
  intro hs; rw [h] at hs; cases hs

theorem Move.keeps_closedIdle {a b : Ev} (mv : Move ctl a b) (h : a.toState.ClosedIdle)
    (hr : a.bus.resetLow = false) : b.toState.ClosedIdle ∧ b.bus.resetLow = false := by
  obtain ⟨h1, h2, h3, h4⟩ := h
  cases mv with
  | complete _ key t st n => unfold Ev.completeAfter; split <;> exact ⟨⟨h1, h2, h3, h4⟩, hr⟩
  | note _ n => unfold Ev.notice; split <;> exact ⟨⟨h1, h2, h3, h4⟩, hr⟩
  | media _ m hm =>
    refine ⟨⟨fun hg => ?_, h2, h3, h4⟩, hr⟩
    cases hl : m.link with
    | none => rfl
    | some o =>
      rcases hm.link (by rw [hl]; rfl) with k | k
      · exact absurd k (isSome_false_of_eq_none (h1 hg))
      · exact absurd k hg
  | store _ st e1 e2 =>
    exact ⟨⟨h1, fun hs => h2 (e1 ▸ hs), fun hs => h3 (e2 ▸ hs), fun hl => by rw [hr] at hl; cases hl⟩, hr⟩
  | gate _ g hg =>
    refine ⟨⟨fun hn => ?_, fun hs => ?_, h3, h4⟩, hr⟩
    · rcases hg.closes hn with k | k
      · exact h1 k
      · exact k.1
    · refine Classical.byContradiction fun hn => ?_
      rcases hg.closes hn with k | k
      · exact k (h2 hs)
      · exact k.2 hs
  | run _ st hst =>
    refine ⟨⟨h1, fun hs => ?_, fun hs => h3 (hst.ret hs), fun hl => by rw [hr] at hl; cases hl⟩, hr⟩
    rcases hst.run hs with k | k
    · exact h2 k
    · exact absurd k h3
  | bus _ b hb => exact ⟨⟨h1, h2, h3, fun hl => by rw [hb, hr] at hl; cases hl⟩, hb.trans hr⟩
  | _ => exact ⟨⟨h1, h2, h3, h4⟩, hr⟩

end Sys2Proof.Machine
end

