-- ==== Sys2Proof/Laws/KeepsTags.lean ====
section
/-! SUPPORT. Laws/KeepsTags.lean: what each move of an event keeps of the tags, the acceptance order list and the report
queue (R61, R79). -/

namespace Sys2Proof.Machine

open Sys2Proof

variable {ctl : Bool}

/-- The records of the report queue with the completions the event has posted so far. -/
def Ev.allReports (e : Ev) : List Report := e.rep.recs ++ e.posted.map (·.report)

/-- Inside an event: the order list, the completions and the room of the report queue agree with the tags. -/
structure Ev.TagsExact (e : Ev) : Prop where
  orderOnce : e.cmd.order.Nodup
  orderExact : ∀ t, t ∈ e.cmd.order ↔ (e.cmd.tag t).owed = true
  completionOnce : (completionTags e.allReports).Nodup
  completionExact : ∀ t, t ∈ completionTags e.allReports ↔ (e.cmd.tag t).st = .reported

/-! ## A tag record replaced -/

theorem tag_set (c : Cmd) (t u : Tag) (r : TagRec) :
    ({ c with tags := c.tags.set t r } : Cmd).tag u = if u = t ∧ t < c.tags.length then r else c.tag u := by
  unfold Cmd.tag
  dsimp only
  simp only [List.getD_eq_getElem?_getD, List.getElem?_set]
  by_cases h : t = u
  · subst h
    by_cases hl : t < c.tags.length
    · simp [hl]
    · simp [hl]
  · rw [if_neg h, if_neg (fun k => h k.1.symm)]

theorem tag_beyond (c : Cmd) (t : Tag) (h : ¬ t < c.tags.length) : c.tag t = TagRec.empty := by
  unfold Cmd.tag; simp [List.getD_eq_getElem?_getD, h]

theorem countP_set (p : TagRec → Bool) (l : List TagRec) (t : Nat) (r : TagRec) (h : t < l.length) :
    (l.set t r).countP p + (if p (l.getD t TagRec.empty) then 1 else 0) = l.countP p + (if p r then 1 else 0) := by
  induction l generalizing t with
  | nil => cases h
  | cons x l ih =>
    cases t with
    | zero => simp [List.countP_cons]; omega
    | succ t =>
      have := ih t (by simpa using h)
      simp only [List.set_cons_succ, List.countP_cons, List.getD_cons_succ]
      omega

theorem owedCount_set (c : Cmd) (t : Tag) (r : TagRec) (h : t < c.tags.length) :
    ({ c with tags := c.tags.set t r } : Cmd).owedCount + (if (c.tag t).owed then 1 else 0)
      = c.owedCount + (if r.owed then 1 else 0) :=
  countP_set TagRec.owed c.tags t r h

theorem tag_map (c : Cmd) (f : TagRec → TagRec) (hf : f TagRec.empty = TagRec.empty) (t : Tag) :
    ({ c with tags := c.tags.map f } : Cmd).tag t = f (c.tag t) := by
  unfold Cmd.tag
  dsimp only
  simp only [List.getD_eq_getElem?_getD, List.getElem?_map]
  cases c.tags[t]? with
  | none => simp [hf]
  | some x => rfl

/-! ## The completions posted -/

theorem completionTags_append (l k : List Report) : completionTags (l ++ k) = completionTags l ++ completionTags k :=
  List.filterMap_append

theorem insertPosted_perm (p : Posted) (l : List Posted) : (insertPosted p l).Perm (p :: l) := by
  induction l with
  | nil => exact .refl _
  | cons q l ih =>
    unfold insertPosted
    split
    · exact .refl _
    · exact (List.Perm.cons q ih).trans (List.Perm.swap p q l)

theorem insertPosted_length (p : Posted) (l : List Posted) : (insertPosted p l).length = l.length + 1 :=
  (insertPosted_perm p l).length_eq

theorem completionTags_posted (l : List Report) (p : Posted) (q : List Posted) :
    (completionTags (l ++ (insertPosted p q).map (·.report))).Perm
      (completionTags [p.report] ++ completionTags (l ++ q.map (·.report))) := by
  have h : (l ++ (insertPosted p q).map (·.report)).Perm ([p.report] ++ (l ++ q.map (·.report))) := by
    refine (List.Perm.append_left l ((insertPosted_perm p q).map _)).trans ?_
    exact List.perm_middle
  have k := h.filterMap (fun r => match r with | .completion t _ _ _ => some t | .notice _ => none)
  rw [← completionTags_append]
  exact k

/-! ## The moves -/

theorem Ev.TagsExact.congr {a b : Ev} (h : a.TagsExact) (h1 : b.cmd = a.cmd)
    (h2 : completionTags b.allReports = completionTags a.allReports) : b.TagsExact := by
  obtain ⟨k1, k2, k3, k4⟩ := h
  exact ⟨by rw [h1]; exact k1, fun t => by rw [h1]; exact k2 t, by rw [h2]; exact k3, fun t => by rw [h1, h2]; exact k4 t⟩

theorem Ev.notice_tags (e : Ev) (n : Notice) : completionTags (e.notice n).allReports = completionTags e.allReports := by
  unfold Ev.notice
  split
  · simp [Ev.allReports, completionTags]
  · rfl

theorem Ev.notice_room (e : Ev) (n : Notice) (h : e.recordSum ≤ Config.reportPlaces) :
    (e.notice n).recordSum ≤ Config.reportPlaces := by
  unfold Ev.notice
  split
  · rename_i hl
    have : ({ e with rep.recs := e.rep.recs ++ [.notice n] } : Ev).recordSum = e.recordSum + 1 := by
      simp [Ev.recordSum]; omega
    rw [this]; exact hl
  · exact h

theorem Ev.TagsExact.setTag {e : Ev} (h : e.TagsExact) (t : Tag) (r : TagRec) (hr : TagStep (e.cmd.tag t) r) :
    (e.setTag t r).TagsExact := by
  obtain ⟨k1, k2, k3, k4⟩ := h
  have ht : ∀ u, ((e.setTag t r).cmd.tag u).owed = (e.cmd.tag u).owed
      ∧ (((e.setTag t r).cmd.tag u).st = .reported ↔ (e.cmd.tag u).st = .reported) := by
    intro u
    have hu : (e.setTag t r).cmd.tag u = _ := tag_set e.cmd t u r
    rw [hu]
    split
    · rename_i hc; rw [hc.1]; exact ⟨hr.owed, hr.reported⟩
    · exact ⟨rfl, Iff.rfl⟩
  exact ⟨k1, fun u => (k2 u).trans (by rw [(ht u).1]), k3, fun u => (k4 u).trans (ht u).2.symm⟩

theorem Ev.setTag_room (e : Ev) (t : Tag) (r : TagRec) (hr : TagStep (e.cmd.tag t) r) :
    (e.setTag t r).recordSum = e.recordSum := by
  have : (e.setTag t r).cmd.owedCount = e.cmd.owedCount := by
    show (e.cmd.tags.set t r).countP TagRec.owed = e.cmd.tags.countP TagRec.owed
    by_cases h : t < e.cmd.tags.length
    · have k := countP_set TagRec.owed e.cmd.tags t r h
      have ho : (e.cmd.tags.getD t TagRec.empty).owed = r.owed := hr.owed.symm
      rw [ho] at k
      omega
    · rw [List.set_eq_of_length_le (Nat.le_of_not_lt h)]
  unfold Ev.recordSum
  rw [this]; rfl

theorem TagRec.owed_reported (r : TagRec) (h : r.st = .reported) : r.owed = false := by simp [TagRec.owed, h]

theorem Ev.TagsExact.completeAfter {e : Ev} (h : e.TagsExact) (k : Nat) (t : Tag) (st : Status) (n : Lba) :
    (e.completeAfter k t st n).TagsExact := by
  unfold Ev.completeAfter
  split
  · rename_i ho
    obtain ⟨k1, k2, k3, k4⟩ := h
    have hl : t < e.cmd.tags.length := by
      refine Classical.byContradiction fun hn => ?_
      rw [tag_beyond _ _ hn] at ho; cases ho
    have hnt : t ∉ completionTags e.allReports := by
      rw [k4]; intro hs; rw [TagRec.owed_reported _ hs] at ho; cases ho
    have hp := completionTags_posted e.rep.recs
      { key := max k (e.orderKey t), report := .completion t st (e.cmd.tag t).done n } e.posted
    have hh : ∀ u, ({ e.cmd with
        tags := e.cmd.tags.set t { e.cmd.tag t with st := .reported, claims := [] }
        order := e.cmd.order.filter (· != t) } : Cmd).tag u
        = if u = t ∧ t < e.cmd.tags.length then { e.cmd.tag t with st := .reported, claims := [] } else e.cmd.tag u :=
      fun u => tag_set e.cmd t u _
    refine ⟨k1.filter _, fun u => ?_, ?_, fun u => ?_⟩
    · rw [hh u]
      simp only [List.mem_filter, k2 u, hl, and_true]
      by_cases hu : u = t
      · subst hu; simp [TagRec.owed]
      · simp [hu]
    · refine hp.nodup_iff.mpr ?_
      show (t :: completionTags e.allReports).Nodup
      exact List.nodup_cons.mpr ⟨hnt, k3⟩
    · rw [hh u]
      refine (hp.mem_iff).trans ?_
      show u ∈ t :: completionTags e.allReports ↔ _
      rw [List.mem_cons, k4 u]
      by_cases hu : u = t
      · simp [hu, hl]
      · simp [hu]
  · exact h

theorem Ev.completeAfter_room (e : Ev) (k : Nat) (t : Tag) (st : Status) (n : Lba) :
    (e.completeAfter k t st n).recordSum = e.recordSum := by
  unfold Ev.completeAfter
  split
  · rename_i ho
    have hl : t < e.cmd.tags.length := by
      refine Classical.byContradiction fun hn => ?_
      rw [tag_beyond _ _ hn] at ho; cases ho
    have hc := countP_set TagRec.owed e.cmd.tags t { e.cmd.tag t with st := .reported, claims := [] } hl
    have h1 : (e.cmd.tags.getD t TagRec.empty).owed = true := ho
    have h0 : ({ e.cmd.tag t with st := .reported, claims := [] } : TagRec).owed = false := rfl
    rw [h1, h0] at hc
    simp only [Ev.recordSum, insertPosted_length, Cmd.owedCount]
    simp only [if_true, Bool.false_eq_true, if_false] at hc
    omega
  · rfl

theorem freeTag_spec (c : Cmd) (t : Tag) (h : c.freeTag = some t) : t < c.tags.length ∧ (c.tag t).st = .free := by
  unfold Cmd.freeTag at h
  obtain ⟨hl, hs, _⟩ := List.findIdx?_eq_some_iff_getElem.mp h
  refine ⟨hl, ?_⟩
  unfold Cmd.tag
  rw [List.getD_eq_getElem?_getD, List.getElem?_eq_getElem hl]
  simpa using hs

theorem Ev.TagsExact.accept {e : Ev} (h : e.TagsExact) (o : Opcode) (t : Tag) (v : Word) (hf : e.cmd.freeTag = some t) :
    (e.accept o t v).TagsExact := by
  obtain ⟨k1, k2, k3, k4⟩ := h
  obtain ⟨hl, hs⟩ := freeTag_spec _ _ hf
  have hno : (e.cmd.tag t).owed = false := by simp [TagRec.owed, hs]
  have hnt : t ∉ e.cmd.order := by rw [k2, hno]; exact Bool.false_ne_true
  have hh : ∀ u, (e.accept o t v).cmd.tag u
      = if u = t ∧ t < e.cmd.tags.length then e.cmd.record o else e.cmd.tag u := fun u => tag_set e.cmd t u _
  refine ⟨?_, fun u => ?_, k3, fun u => ?_⟩
  · show (e.cmd.order ++ [t]).Nodup
    rw [List.nodup_append]
    exact ⟨k1, by simp, fun a ha b hb => by simp at hb; subst hb; exact fun he => hnt (he ▸ ha)⟩
  · rw [hh u]
    show u ∈ e.cmd.order ++ [t] ↔ _
    rw [List.mem_append, k2 u]
    by_cases hu : u = t
    · subst hu; simp [hl, Cmd.record, TagRec.owed]
    · simp [hu]
  · rw [hh u]
    refine (k4 u).trans ?_
    by_cases hu : u = t
    · subst hu; simp [hl, hs, Cmd.record]
    · simp [hu]

theorem Ev.accept_room (e : Ev) (o : Opcode) (t : Tag) (v : Word) (hf : e.cmd.freeTag = some t) :
    (e.accept o t v).recordSum = e.recordSum + 1 := by
  obtain ⟨hl, hs⟩ := freeTag_spec _ _ hf
  have hno : (e.cmd.tag t).owed = false := by simp [TagRec.owed, hs]
  have hc := owedCount_set e.cmd t (e.cmd.record o) hl
  rw [hno] at hc
  have h1 : (e.cmd.record o).owed = true := rfl
  rw [h1] at hc
  simp at hc
  have h2 : (e.accept o t v).cmd.owedCount = ({ e.cmd with tags := e.cmd.tags.set t (e.cmd.record o) } : Cmd).owedCount :=
    rfl
  have h3 : (e.accept o t v).recordSum = e.rep.recs.length + e.posted.length + (e.accept o t v).cmd.owedCount := rfl
  rw [h3, h2, hc]
  unfold Ev.recordSum
  omega

theorem TagRec.abandon_owed (r : TagRec) : r.abandon.owed = false := by
  unfold TagRec.abandon
  split
  · rfl
  · rename_i h; simpa using h

theorem TagRec.abandon_reported (r : TagRec) : r.abandon.st = .reported ↔ r.st = .reported := by
  unfold TagRec.abandon
  split
  · rename_i h
    constructor
    · intro k; cases k
    · intro k; rw [TagRec.owed_reported r k] at h; cases h
  · exact Iff.rfl

theorem TagRec.popped_owed (r : TagRec) : r.popped.owed = r.owed := by
  unfold TagRec.popped
  split
  · rename_i h; rw [TagRec.owed_reported r h]; rfl
  · rfl

theorem TagRec.popped_not_reported (r : TagRec) : r.popped.st ≠ .reported := by
  unfold TagRec.popped
  split
  · intro k; cases k
  · assumption

theorem Move.keeps_tags {a b : Ev} (mv : Move ctl a b) (h : a.TagsExact) : b.TagsExact := by
  cases mv with
  | tag _ t r hr => exact h.setTag t r hr
  | complete _ key t st n => exact h.completeAfter key t st n
  | note _ n => exact h.congr (Ev.notice_frame a n).2.2.2.2.2.2.2.2.2.1 (a.notice_tags n)
  | accept _ o t v hf hr => exact h.accept o t v hf
  | abandon _ =>
    obtain ⟨_, _, k3, k4⟩ := h
    have hh : ∀ u, ({ a.cmd with tags := a.cmd.tags.map TagRec.abandon, order := [] } : Cmd).tag u = (a.cmd.tag u).abandon :=
      fun u => tag_map a.cmd TagRec.abandon rfl u
    refine ⟨List.nodup_nil, fun u => ?_, k3, fun u => ?_⟩
    · rw [hh u, TagRec.abandon_owed]; simp
    · rw [hh u]; exact (k4 u).trans (TagRec.abandon_reported _).symm
  | clear _ =>
    obtain ⟨k1, k2, _, _⟩ := h
    have hh : ∀ u, ({ a.cmd with tags := a.cmd.tags.map TagRec.popped, submit := .none, abortRefused := false } : Cmd).tag u
        = (a.cmd.tag u).popped := fun u => tag_map a.cmd TagRec.popped rfl u
    refine ⟨k1, fun u => ?_, List.nodup_nil, fun u => ?_⟩
    · rw [hh u, TagRec.popped_owed]; exact k2 u
    · rw [hh u]
      constructor
      · intro hm; cases hm
      · intro hs; exact absurd hs (TagRec.popped_not_reported _)
  | _ => exact h.congr rfl rfl

theorem countP_map_le (f : TagRec → TagRec) (hf : ∀ r, (f r).owed = true → r.owed = true) (l : List TagRec) :
    (l.map f).countP TagRec.owed ≤ l.countP TagRec.owed := by
  rw [List.countP_map]
  exact List.countP_mono_left fun r _ hr => hf r hr

theorem Move.keeps_room {a b : Ev} (mv : Move ctl a b) (h : a.recordSum ≤ Config.reportPlaces) :
    b.recordSum ≤ Config.reportPlaces := by
  cases mv with
  | tag _ t r hr => rw [Ev.setTag_room a t r hr]; exact h
  | complete _ key t st n => rw [Ev.completeAfter_room]; exact h
  | note _ n => exact a.notice_room n h
  | accept _ o t v hf hr => rw [Ev.accept_room a o t v hf]; exact hr
  | abandon _ =>
    have := countP_map_le TagRec.abandon (fun r hr => by rw [TagRec.abandon_owed] at hr; cases hr) a.cmd.tags
    simp only [Ev.recordSum, Cmd.owedCount] at h ⊢
    omega
  | clear _ =>
    have := countP_map_le TagRec.popped (fun r hr => by rw [TagRec.popped_owed] at hr; exact hr) a.cmd.tags
    simp only [Ev.recordSum, Cmd.owedCount, List.length_nil] at h ⊢
    omega
  | _ => exact h

end Sys2Proof.Machine
end

