-- ==== Sys2Proof/Laws/Effects.lean ====
section
/-! SUPPORT. Laws/Effects.lean: what a command can do, said once: it leaves the part as it is, or changes one register's own
fields, or makes one event, or resets the part. -/

namespace Sys2Proof.Machine

open Sys2Proof

/-- The changes a command makes outside an event: each of one register or pin. -/
inductive Plain : State → State → Prop where
  | param (s : State) (r : ParamReg) (v : Word) : Plain s (s.writeParam r v)
  | refuse (s : State) (v : Word) (why : Reason) : Plain s (s.refuse v why)
  | abortRefused (s : State) : Plain s { s with cmd.abortRefused := true }
  | pop (s : State) : Plain s s.pop
  | status (s : State) (v : Word) : Plain s (s.writeStatus v)
  | stat (s : State) (p : PortId) (v : Word) : Plain s (s.writeStat p v)
  | empty (s : State) (p : PortId) : Plain s (s.emptyAccess p)
  | word (s : State) (p : PortId) (b : Binding) : Plain s (s.nextWord p b)
  | placed (s : State) (i : SlotIx) (v : Word) : Plain s (s.placeWord i v)
  | lost (s : State) : Plain s s.clearLost
  | media (s : State) (v : Word) : Plain s (s.writeMediaCfg v)
  | stage (s : State) (v : Word) : Plain s (s.writeStageCfg v)
  | patrol (s : State) (v : Word) : Plain s (s.writePatrolCfg v)
  | window (s : State) (r : WindowReg) (v : Word) : Plain s (s.writeWindow r v)
  | view (s : State) (r : ViewReg) (v : Word) : Plain s (s.writeView r v)
  | d0 (s : State) : Plain s s.readView
  | wide (s : State) (r : WideReg) : Plain s (s.readWide r)
  | drive (s : State) (w : Word) : Plain s (s.drive w)

/-- What a command does. -/
inductive Effect : State → State → Prop where
  | same (s : State) : Effect s s
  | plain {s t : State} (hr : s.bus.resetLow = false) (h : Plain s t) : Effect s t
  | event (s : State) (e : Ev) (hr : s.bus.resetLow = false) (m : Moves true s.begin e) : Effect s e.finish
  | line (s : State) : Effect s { s with gate := s.gate.lineAsserted }
  | filter (s : State) : Effect s { s with gate.filter := .asserted }
  | release (s : State) : Effect s { s with gate := s.gate.lineReleased }
  | identify (s : State) (hs : s.store.run = .starting) : Effect s { s with media := s.media.identify }
  | power (s : State) : Effect s s.powerOn
  | resetLine (s : State) : Effect s s.resetAsserted
  | resetEnd (s : State) : Effect s s.resetReleased
  | after {s t u : State} (hr : s.bus.resetLow = false) (h : Plain s t) (k : Effect t u) : Effect s u

theorem effect_event (s : State) (f : Ev → Ev) (hf : Moves true s.begin (f s.begin)) : Effect s (s.event f) := by
  cases h : s.bus.resetLow with
  | true => rw [s.event_reset f h]; exact .same s
  | false => rw [s.event_eq f h]; exact .event s _ h (hf.trans (moves_settled _))

theorem effect_access (s : State) (f : State → State) (hf : s.bus.resetLow = false → Effect s (f s)) :
    Effect s (s.access f) := by
  unfold State.access
  cases h : s.bus.resetLow with
  | true => exact .same s
  | false => exact hf h

theorem effect_internal (s : State) (f : Ev → Option Ev) (hf : ∀ e e', f e = some e' → Moves true e e') :
    Effect s (s.internal f) :=
  effect_event s _ (moves_getD _ _ (hf _))

theorem effect_writeCommand (s : State) (v : Word) (hr : s.bus.resetLow = false) : Effect s (s.writeCommand v) := by
  unfold State.writeCommand
  split
  · exact .plain hr (.refuse ..)
  · split
    · exact .plain hr (.refuse ..)
    · rename_i t ht
      exact effect_event s _ (moves_accept s _ t v ht)

theorem effect_writeAbort (s : State) (v : Word) (hr : s.bus.resetLow = false) : Effect s (s.writeAbort v) := by
  unfold State.writeAbort
  split
  · exact .plain hr (.abortRefused s)
  · split
    · exact effect_event s _ (moves_abortQueued _ _)
    · rename_i h; exact effect_event s _ (moves_abortActive _ _ h)
    all_goals exact .same s

theorem effect_writeControl (s : State) (v : Word) : Effect s (s.writeControl v) :=
  effect_event s _ (moves_controlWrite v _)

theorem effect_writeGateCfg (s : State) (v : Word) : Effect s (s.writeGateCfg v) :=
  effect_event s _ (moves_gateConfigure _ v)

theorem State.event_resetLow (s : State) (f : Ev → Ev) (hf : Moves true s.begin (f s.begin)) :
    (s.event f).bus.resetLow = s.bus.resetLow := by
  rcases s.event_moves f hf with h | ⟨e, m, h⟩
  · rw [h]
  · rw [h]; exact m.keeps_pending.2

theorem effect_readFrom (s : State) (p : PortId) (b : Binding) (i : SlotIx) (w : Word) (hr : s.bus.resetLow = false) :
    Effect s ((s.readFrom p b i).drive w) := by
  unfold State.readFrom
  split
  · exact .after hr (.word s p b) (.plain hr (.drive _ w))
  · rw [s.event_eq _ hr]
    have m : Moves true s.begin (Ev.blockRead p b i s.begin).settled := (moves_blockRead p b i _).trans (moves_settled _)
    refine .event s { (Ev.blockRead p b i s.begin).settled with bus.readout := some w } hr ?_
    exact m.trans (.one (.bus _ { (Ev.blockRead p b i s.begin).settled.bus with readout := some w } rfl))

theorem effect_readData (s : State) (p : PortId) (hr : s.bus.resetLow = false) : Effect s (s.readData p) := by
  unfold State.readData
  split
  · split
    · exact effect_readFrom s p _ _ _ hr
    · exact .after hr (.empty s p) (.plain hr (.drive _ 0))
  · exact .after hr (.empty s p) (.plain hr (.drive _ 0))

theorem effect_writeData (s : State) (p : PortId) (v : Word) (hr : s.bus.resetLow = false) :
    Effect s (s.writeData p v) := by
  unfold State.writeData
  split
  · split
    · unfold State.writeInto
      split
      · exact .after hr (.placed s _ v) (.plain hr (.word ..))
      · exact .after hr (.placed s _ v) (effect_event _ _ (moves_blockWritten ..))
    · exact .plain hr (.empty s p)
  · exact .plain hr (.empty s p)

theorem effect_writeReg (s : State) (a : BitVec 6) (v : Word) (hr : s.bus.resetLow = false) :
    Effect s (s.writeReg a v) := by
  unfold State.writeReg
  split
  · exact effect_writeControl s v
  · exact .plain hr (.status s v)
  · exact .plain hr (.param ..)
  · exact .plain hr (.param ..)
  · exact .plain hr (.param ..)
  · exact .plain hr (.param ..)
  · exact effect_writeCommand s v hr
  · exact effect_writeAbort s v hr
  · exact .plain hr (.pop s)
  · exact effect_writeData s _ v hr
  · exact .plain hr (.stat ..)
  · exact effect_writeData s _ v hr
  · exact .plain hr (.stat ..)
  · exact .plain hr (.lost s)
  · exact .plain hr (.media s v)
  · exact effect_writeGateCfg s v
  · exact .plain hr (.stage s v)
  · exact .plain hr (.patrol s v)
  · exact .plain hr (.window ..)
  · exact .plain hr (.window ..)
  · exact .plain hr (.window ..)
  · exact .plain hr (.window ..)
  · exact .plain hr (.view ..)
  · exact .plain hr (.view ..)
  · exact .same s

theorem effect_response (s : State) (f : Response) : Effect s (s.response f) := by
  unfold State.response
  split
  · exact .same s
  · exact effect_event s _ (moves_answered ..)

theorem effect_opExpires (s : State) : Effect s s.opExpires := by
  unfold State.opExpires
  split
  · exact effect_event s _ (moves_tripInput ..)
  · exact .same s

theorem effect_identExpires (s : State) : Effect s s.identExpires := by
  unfold State.identExpires
  split
  · rename_i h
    simp only [Bool.and_eq_true, beq_iff_eq] at h
    exact .identify s h.1.2
  · exact .same s

theorem effect_lineAsserts (s : State) : Effect s s.lineAsserts := by
  unfold State.lineAsserts
  split
  · exact .same s
  · split
    · exact .line s
    · exact effect_event s _ (moves_lineAssert _)

theorem effect_lineReleases (s : State) : Effect s s.lineReleases := by
  unfold State.lineReleases
  split
  · exact .release s
  · exact .same s

theorem effect_filterExpires (s : State) : Effect s s.filterExpires := by
  unfold State.filterExpires
  split
  · exact .same s
  · split
    · exact .filter s
    · exact effect_event s _ (moves_filterExpires _)

theorem effect_holdExpires (s : State) : Effect s s.holdExpires := by
  unfold State.holdExpires
  split
  · exact effect_event s _ (moves_holdExpires _)
  · exact .same s

theorem effect_retryExpires (s : State) : Effect s s.retryExpires := by
  unfold State.retryExpires
  split
  · exact effect_event s _ (moves_store_same _ _ rfl rfl)
  · exact .same s

theorem effect_intervalExpires (s : State) : Effect s s.intervalExpires := by
  unfold State.intervalExpires
  split
  · exact effect_event s _ (moves_intervalExpires _)
  · exact .same s

/-- What any command does. -/
theorem exec_effect (c : Instr) (s t : State) (h : exec c s = .next t) : Effect s t := by
  cases c with
  | powerOn => cases h; exact .power s
  | resetLineAssert => cases h; exact .resetLine s
  | resetLineRelease => cases h; exact .resetEnd s
  | read => cases h; exact effect_access s _ (effect_writeCommand s _)
  | write => cases h; exact effect_access s _ (effect_writeCommand s _)
  | verify => cases h; exact effect_access s _ (effect_writeCommand s _)
  | flush => cases h; exact effect_access s _ (effect_writeCommand s _)
  | relocate => cases h; exact effect_access s _ (effect_writeCommand s _)
  | releasePinned => cases h; exact effect_access s _ (effect_writeCommand s _)
  | clearSuspect => cases h; exact effect_access s _ (effect_writeCommand s _)
  | prepare => cases h; exact effect_access s _ (effect_writeCommand s _)
  | badOpcode v => cases h; exact effect_access s _ (effect_writeCommand s _)
  | abort v => cases h; exact effect_access s _ (effect_writeAbort s v)
  | reportPop v => cases h; exact effect_access s _ (fun hr => .plain hr (.pop s))
  | dataRead p => cases h; exact effect_access s _ (effect_readData s p)
  | dataWrite p v => cases h; exact effect_access s _ (effect_writeData s p v)
  | statWrite p v => cases h; exact effect_access s _ (fun hr => .plain hr (.stat s p v))
  | statusWrite v => cases h; exact effect_access s _ (fun hr => .plain hr (.status s v))
  | lostBlocksWrite v => cases h; exact effect_access s _ (fun hr => .plain hr (.lost s))
  | gateReopen v => cases h; exact effect_access s _ (fun _ => effect_writeControl s v)
  | patrolEnable v => cases h; exact effect_access s _ (fun _ => effect_writeControl s v)
  | patrolDisable v => cases h; exact effect_access s _ (fun _ => effect_writeControl s v)
  | softReset v => cases h; exact effect_access s _ (fun _ => effect_writeControl s v)
  | discard v => cases h; exact effect_access s _ (fun _ => effect_writeControl s v)
  | mediaCfgWrite v => cases h; exact effect_access s _ (fun hr => .plain hr (.media s v))
  | gateCfgWrite v => cases h; exact effect_access s _ (fun _ => effect_writeGateCfg s v)
  | stageCfgWrite v => cases h; exact effect_access s _ (fun hr => .plain hr (.stage s v))
  | patrolCfgWrite v => cases h; exact effect_access s _ (fun hr => .plain hr (.patrol s v))
  | patrolWindowWrite r v => cases h; exact effect_access s _ (fun hr => .plain hr (.window s r v))
  | tableViewSelect r v => cases h; exact effect_access s _ (fun hr => .plain hr (.view s r v))
  | tableD0Read => cases h; exact effect_access s _ (fun hr => .plain hr (.d0 s))
  | wideLowRead r => cases h; exact effect_access s _ (fun hr => .plain hr (.wide s r))
  | registerWrite a v => cases h; exact effect_access s _ (effect_writeReg s a v)
  | responseFrame f => cases h; exact effect_response s f
  | opTimerExpiry => cases h; exact effect_opExpires s
  | identifyRetryExpiry => cases h; exact effect_identExpires s
  | faultLineAssert => cases h; exact effect_lineAsserts s
  | faultLineRelease => cases h; exact effect_lineReleases s
  | filterWidthExpiry => cases h; exact effect_filterExpires s
  | holdTimerExpiry => cases h; exact effect_holdExpires s
  | commitRetryExpiry => cases h; exact effect_retryExpires s
  | patrolIntervalExpiry => cases h; exact effect_intervalExpires s
  | opIssue => cases h; exact effect_internal s _ moves_opIssue?
  | commitStart => cases h; exact effect_internal s _ moves_commitStart?
  | quiesceEnd => cases h; exact effect_internal s _ moves_quiesceEnd?
  | slotAllocation => cases h; exact effect_internal s _ moves_slotAlloc?
  | portBinding => cases h; exact effect_internal s _ moves_portBinding?
  | destageOffer => cases h; exact effect_internal s _ moves_destageOffer?
  | writeThroughJobCreate => cases h; exact effect_internal s _ moves_wtCreate?
  | commandStart => cases h; exact effect_internal s _ moves_commandStart?
  | repairActivation => cases h; exact effect_internal s _ moves_repairActivate?
  | admissionWaitServe => cases h; exact effect_internal s _ moves_admissionServe?
  | patrolResume => cases h; exact effect_internal s _ moves_patrolResume?
  | flushComplete => cases h; exact effect_internal s _ moves_flushComplete?

end Sys2Proof.Machine
end

