-- ==== Sys2Proof/Laws/Close.lean ====
section
/-! SUPPORT. Laws/Close.lean: what a proof about one command cites: a due internal step, a first element that satisfies a
condition, a matched response, what the consequences of an event keep outside a quiesce. -/

namespace Sys2Proof.Machine

open Sys2Proof

/-- A search finds the first element that satisfies its condition. -/
theorem FirstWith.find {α : Type} {l : List α} {p : α → Bool} {x : α} (h : FirstWith l p x) : l.find? p = some x := by
  obtain ⟨pre, post, rfl, hx, hpre⟩ := h
  have hn : pre.find? p = none := by
    rw [List.find?_eq_none]; intro y hy; simp [hpre y hy]
  simp [List.find?_append, hn, hx]

/-- An internal step that is due is taken. -/
theorem State.internal_due (f : Ev → Option Ev) (s : State) (e : Ev) (hr : s.bus.resetLow = false)
    (h : f s.begin = some e) : s.internal f = e.close := by
  unfold State.internal; rw [s.event_eq _ hr, h]; rfl

/-- An internal step that is not due leaves what else is due. -/
theorem State.internal_idle (f : Ev → Option Ev) (s : State) (hr : s.bus.resetLow = false) (h : f s.begin = none) :
    s.internal f = s.begin.close := by
  unfold State.internal; rw [s.event_eq _ hr, h]; rfl

/-- Outside a quiesce the consequences of an event move neither the gate nor the run state. -/
theorem Ev.close_plain (e : Ev) (h : e.store.run ≠ .quiesce) :
    e.close.gate = e.gate ∧ e.close.store.run = e.store.run := by
  have k := (moves_settle_plain Config.eventSteps e h).plain_keeps
  exact ⟨k.1, k.2.2.1⟩

/-- A response that fits the outstanding op is its answer (R100). -/
theorem State.matched_of (s : State) (o : Outstanding) (b : Body) (hl : s.media.link = some o)
    (hf : fits b o.op = true) : s.media.matched { seq := o.seq, body := b } = some o := by
  unfold Media.matched; rw [hl]; simp [Option.filter, hf]

/-- A matched response is taken as one event. -/
theorem exec_matched (s : State) (o : Outstanding) (b : Body) (hr : s.bus.resetLow = false)
    (hl : s.media.link = some o) (hf : fits b o.op = true) :
    exec (.responseFrame { seq := o.seq, body := b }) s = .next (s.begin.answered o b).close := by
  simp [exec, execResponseFrame, State.response, s.matched_of o b hl hf, s.event_eq _ hr]

/-- The record of a tag that was just written. -/
theorem tag_set_self (c : Cmd) (l : List TagRec) (t : Tag) (r : TagRec) (h : t < l.length) :
    Cmd.tag { c with tags := l.set t r } t = r := by
  simp [Cmd.tag, List.getD_eq_getElem?_getD, h]

/-- A slot that was just written. -/
theorem slot_setSlot_self (b : Buf) (i : SlotIx) (x : Slot) (h : i < b.slots.length) : (b.setSlot i x).slot i = x := by
  rw [b.slot_setSlot i i x h]; simp

end Sys2Proof.Machine
end

