-- ==== Sys2Proof/Laws/State.lean ====
section
/-! SUPPORT. Laws/State.lean: beside State, one lemma per field that a named update leaves unchanged, so that no proof
unfolds a record update. -/

namespace Sys2Proof.Machine

open Sys2Proof

@[simp] theorem State.writeParam_bus (s : State) (r : ParamReg) (v : Word) : (s.writeParam r v).bus = s.bus := by cases r <;> rfl
@[simp] theorem State.writeParam_rep (s : State) (r : ParamReg) (v : Word) : (s.writeParam r v).rep = s.rep := by cases r <;> rfl
@[simp] theorem State.writeParam_ports (s : State) (r : ParamReg) (v : Word) : (s.writeParam r v).ports = s.ports := by cases r <;> rfl
@[simp] theorem State.writeParam_buf (s : State) (r : ParamReg) (v : Word) : (s.writeParam r v).buf = s.buf := by cases r <;> rfl
@[simp] theorem State.writeParam_trans (s : State) (r : ParamReg) (v : Word) : (s.writeParam r v).trans = s.trans := by cases r <;> rfl
@[simp] theorem State.writeParam_rpr (s : State) (r : ParamReg) (v : Word) : (s.writeParam r v).rpr = s.rpr := by cases r <;> rfl
@[simp] theorem State.writeParam_media (s : State) (r : ParamReg) (v : Word) : (s.writeParam r v).media = s.media := by cases r <;> rfl
@[simp] theorem State.writeParam_gate (s : State) (r : ParamReg) (v : Word) : (s.writeParam r v).gate = s.gate := by cases r <;> rfl
@[simp] theorem State.writeParam_patrol (s : State) (r : ParamReg) (v : Word) : (s.writeParam r v).patrol = s.patrol := by cases r <;> rfl
@[simp] theorem State.writeParam_store (s : State) (r : ParamReg) (v : Word) : (s.writeParam r v).store = s.store := by cases r <;> rfl
@[simp] theorem State.writeParam_pending (s : State) (r : ParamReg) (v : Word) : (s.writeParam r v).pending = s.pending := by cases r <;> rfl

@[simp] theorem State.refuse_bus (s : State) (v : Word) (why : Reason) : (s.refuse v why).bus = s.bus := rfl
@[simp] theorem State.refuse_rep (s : State) (v : Word) (why : Reason) : (s.refuse v why).rep = s.rep := rfl
@[simp] theorem State.refuse_ports (s : State) (v : Word) (why : Reason) : (s.refuse v why).ports = s.ports := rfl
@[simp] theorem State.refuse_buf (s : State) (v : Word) (why : Reason) : (s.refuse v why).buf = s.buf := rfl
@[simp] theorem State.refuse_trans (s : State) (v : Word) (why : Reason) : (s.refuse v why).trans = s.trans := rfl
@[simp] theorem State.refuse_rpr (s : State) (v : Word) (why : Reason) : (s.refuse v why).rpr = s.rpr := rfl
@[simp] theorem State.refuse_media (s : State) (v : Word) (why : Reason) : (s.refuse v why).media = s.media := rfl
@[simp] theorem State.refuse_gate (s : State) (v : Word) (why : Reason) : (s.refuse v why).gate = s.gate := rfl
@[simp] theorem State.refuse_patrol (s : State) (v : Word) (why : Reason) : (s.refuse v why).patrol = s.patrol := rfl
@[simp] theorem State.refuse_store (s : State) (v : Word) (why : Reason) : (s.refuse v why).store = s.store := rfl
@[simp] theorem State.refuse_pending (s : State) (v : Word) (why : Reason) : (s.refuse v why).pending = s.pending := rfl

@[simp] theorem State.writeStatus_bus (s : State) (v : Word) : (s.writeStatus v).bus = s.bus := rfl
@[simp] theorem State.writeStatus_ports (s : State) (v : Word) : (s.writeStatus v).ports = s.ports := rfl
@[simp] theorem State.writeStatus_buf (s : State) (v : Word) : (s.writeStatus v).buf = s.buf := rfl
@[simp] theorem State.writeStatus_trans (s : State) (v : Word) : (s.writeStatus v).trans = s.trans := rfl
@[simp] theorem State.writeStatus_rpr (s : State) (v : Word) : (s.writeStatus v).rpr = s.rpr := rfl
@[simp] theorem State.writeStatus_media (s : State) (v : Word) : (s.writeStatus v).media = s.media := rfl
@[simp] theorem State.writeStatus_store (s : State) (v : Word) : (s.writeStatus v).store = s.store := rfl
@[simp] theorem State.writeStatus_pending (s : State) (v : Word) : (s.writeStatus v).pending = s.pending := rfl

@[simp] theorem State.writeStat_bus (s : State) (p : PortId) (v : Word) : (s.writeStat p v).bus = s.bus := rfl
@[simp] theorem State.writeStat_cmd (s : State) (p : PortId) (v : Word) : (s.writeStat p v).cmd = s.cmd := rfl
@[simp] theorem State.writeStat_rep (s : State) (p : PortId) (v : Word) : (s.writeStat p v).rep = s.rep := rfl
@[simp] theorem State.writeStat_buf (s : State) (p : PortId) (v : Word) : (s.writeStat p v).buf = s.buf := rfl
@[simp] theorem State.writeStat_trans (s : State) (p : PortId) (v : Word) : (s.writeStat p v).trans = s.trans := rfl
@[simp] theorem State.writeStat_rpr (s : State) (p : PortId) (v : Word) : (s.writeStat p v).rpr = s.rpr := rfl
@[simp] theorem State.writeStat_media (s : State) (p : PortId) (v : Word) : (s.writeStat p v).media = s.media := rfl
@[simp] theorem State.writeStat_gate (s : State) (p : PortId) (v : Word) : (s.writeStat p v).gate = s.gate := rfl
@[simp] theorem State.writeStat_patrol (s : State) (p : PortId) (v : Word) : (s.writeStat p v).patrol = s.patrol := rfl
@[simp] theorem State.writeStat_store (s : State) (p : PortId) (v : Word) : (s.writeStat p v).store = s.store := rfl
@[simp] theorem State.writeStat_pending (s : State) (p : PortId) (v : Word) : (s.writeStat p v).pending = s.pending := rfl

@[simp] theorem State.emptyAccess_bus (s : State) (p : PortId) : (s.emptyAccess p).bus = s.bus := rfl
@[simp] theorem State.emptyAccess_cmd (s : State) (p : PortId) : (s.emptyAccess p).cmd = s.cmd := rfl
@[simp] theorem State.emptyAccess_rep (s : State) (p : PortId) : (s.emptyAccess p).rep = s.rep := rfl
@[simp] theorem State.emptyAccess_buf (s : State) (p : PortId) : (s.emptyAccess p).buf = s.buf := rfl
@[simp] theorem State.emptyAccess_trans (s : State) (p : PortId) : (s.emptyAccess p).trans = s.trans := rfl
@[simp] theorem State.emptyAccess_rpr (s : State) (p : PortId) : (s.emptyAccess p).rpr = s.rpr := rfl
@[simp] theorem State.emptyAccess_media (s : State) (p : PortId) : (s.emptyAccess p).media = s.media := rfl
@[simp] theorem State.emptyAccess_gate (s : State) (p : PortId) : (s.emptyAccess p).gate = s.gate := rfl
@[simp] theorem State.emptyAccess_patrol (s : State) (p : PortId) : (s.emptyAccess p).patrol = s.patrol := rfl
@[simp] theorem State.emptyAccess_store (s : State) (p : PortId) : (s.emptyAccess p).store = s.store := rfl
@[simp] theorem State.emptyAccess_pending (s : State) (p : PortId) : (s.emptyAccess p).pending = s.pending := rfl

@[simp] theorem State.nextWord_bus (s : State) (p : PortId) (b : Binding) : (s.nextWord p b).bus = s.bus := rfl
@[simp] theorem State.nextWord_cmd (s : State) (p : PortId) (b : Binding) : (s.nextWord p b).cmd = s.cmd := rfl
@[simp] theorem State.nextWord_rep (s : State) (p : PortId) (b : Binding) : (s.nextWord p b).rep = s.rep := rfl
@[simp] theorem State.nextWord_buf (s : State) (p : PortId) (b : Binding) : (s.nextWord p b).buf = s.buf := rfl
@[simp] theorem State.nextWord_trans (s : State) (p : PortId) (b : Binding) : (s.nextWord p b).trans = s.trans := rfl
@[simp] theorem State.nextWord_rpr (s : State) (p : PortId) (b : Binding) : (s.nextWord p b).rpr = s.rpr := rfl
@[simp] theorem State.nextWord_media (s : State) (p : PortId) (b : Binding) : (s.nextWord p b).media = s.media := rfl
@[simp] theorem State.nextWord_gate (s : State) (p : PortId) (b : Binding) : (s.nextWord p b).gate = s.gate := rfl
@[simp] theorem State.nextWord_patrol (s : State) (p : PortId) (b : Binding) : (s.nextWord p b).patrol = s.patrol := rfl
@[simp] theorem State.nextWord_store (s : State) (p : PortId) (b : Binding) : (s.nextWord p b).store = s.store := rfl
@[simp] theorem State.nextWord_pending (s : State) (p : PortId) (b : Binding) : (s.nextWord p b).pending = s.pending := rfl

@[simp] theorem State.placeWord_bus (s : State) (i : SlotIx) (v : Word) : (s.placeWord i v).bus = s.bus := rfl
@[simp] theorem State.placeWord_cmd (s : State) (i : SlotIx) (v : Word) : (s.placeWord i v).cmd = s.cmd := rfl
@[simp] theorem State.placeWord_rep (s : State) (i : SlotIx) (v : Word) : (s.placeWord i v).rep = s.rep := rfl
@[simp] theorem State.placeWord_ports (s : State) (i : SlotIx) (v : Word) : (s.placeWord i v).ports = s.ports := rfl
@[simp] theorem State.placeWord_trans (s : State) (i : SlotIx) (v : Word) : (s.placeWord i v).trans = s.trans := rfl
@[simp] theorem State.placeWord_rpr (s : State) (i : SlotIx) (v : Word) : (s.placeWord i v).rpr = s.rpr := rfl
@[simp] theorem State.placeWord_media (s : State) (i : SlotIx) (v : Word) : (s.placeWord i v).media = s.media := rfl
@[simp] theorem State.placeWord_gate (s : State) (i : SlotIx) (v : Word) : (s.placeWord i v).gate = s.gate := rfl
@[simp] theorem State.placeWord_patrol (s : State) (i : SlotIx) (v : Word) : (s.placeWord i v).patrol = s.patrol := rfl
@[simp] theorem State.placeWord_store (s : State) (i : SlotIx) (v : Word) : (s.placeWord i v).store = s.store := rfl
@[simp] theorem State.placeWord_pending (s : State) (i : SlotIx) (v : Word) : (s.placeWord i v).pending = s.pending := rfl

@[simp] theorem State.clearLost_bus (s : State) : s.clearLost.bus = s.bus := rfl
@[simp] theorem State.clearLost_cmd (s : State) : s.clearLost.cmd = s.cmd := rfl
@[simp] theorem State.clearLost_rep (s : State) : s.clearLost.rep = s.rep := rfl
@[simp] theorem State.clearLost_ports (s : State) : s.clearLost.ports = s.ports := rfl
@[simp] theorem State.clearLost_trans (s : State) : s.clearLost.trans = s.trans := rfl
@[simp] theorem State.clearLost_rpr (s : State) : s.clearLost.rpr = s.rpr := rfl
@[simp] theorem State.clearLost_media (s : State) : s.clearLost.media = s.media := rfl
@[simp] theorem State.clearLost_gate (s : State) : s.clearLost.gate = s.gate := rfl
@[simp] theorem State.clearLost_patrol (s : State) : s.clearLost.patrol = s.patrol := rfl
@[simp] theorem State.clearLost_store (s : State) : s.clearLost.store = s.store := rfl
@[simp] theorem State.clearLost_pending (s : State) : s.clearLost.pending = s.pending := rfl

@[simp] theorem State.writeMediaCfg_bus (s : State) (v : Word) : (s.writeMediaCfg v).bus = s.bus := rfl
@[simp] theorem State.writeMediaCfg_cmd (s : State) (v : Word) : (s.writeMediaCfg v).cmd = s.cmd := rfl
@[simp] theorem State.writeMediaCfg_rep (s : State) (v : Word) : (s.writeMediaCfg v).rep = s.rep := rfl
@[simp] theorem State.writeMediaCfg_ports (s : State) (v : Word) : (s.writeMediaCfg v).ports = s.ports := rfl
@[simp] theorem State.writeMediaCfg_buf (s : State) (v : Word) : (s.writeMediaCfg v).buf = s.buf := rfl
@[simp] theorem State.writeMediaCfg_trans (s : State) (v : Word) : (s.writeMediaCfg v).trans = s.trans := rfl
@[simp] theorem State.writeMediaCfg_rpr (s : State) (v : Word) : (s.writeMediaCfg v).rpr = s.rpr := rfl
@[simp] theorem State.writeMediaCfg_gate (s : State) (v : Word) : (s.writeMediaCfg v).gate = s.gate := rfl
@[simp] theorem State.writeMediaCfg_patrol (s : State) (v : Word) : (s.writeMediaCfg v).patrol = s.patrol := rfl
@[simp] theorem State.writeMediaCfg_store (s : State) (v : Word) : (s.writeMediaCfg v).store = s.store := rfl
@[simp] theorem State.writeMediaCfg_pending (s : State) (v : Word) : (s.writeMediaCfg v).pending = s.pending := rfl

@[simp] theorem State.writeStageCfg_bus (s : State) (v : Word) : (s.writeStageCfg v).bus = s.bus := rfl
@[simp] theorem State.writeStageCfg_cmd (s : State) (v : Word) : (s.writeStageCfg v).cmd = s.cmd := rfl
@[simp] theorem State.writeStageCfg_rep (s : State) (v : Word) : (s.writeStageCfg v).rep = s.rep := rfl
@[simp] theorem State.writeStageCfg_ports (s : State) (v : Word) : (s.writeStageCfg v).ports = s.ports := rfl
@[simp] theorem State.writeStageCfg_rpr (s : State) (v : Word) : (s.writeStageCfg v).rpr = s.rpr := rfl
@[simp] theorem State.writeStageCfg_media (s : State) (v : Word) : (s.writeStageCfg v).media = s.media := rfl
@[simp] theorem State.writeStageCfg_gate (s : State) (v : Word) : (s.writeStageCfg v).gate = s.gate := rfl
@[simp] theorem State.writeStageCfg_patrol (s : State) (v : Word) : (s.writeStageCfg v).patrol = s.patrol := rfl
@[simp] theorem State.writeStageCfg_store (s : State) (v : Word) : (s.writeStageCfg v).store = s.store := rfl
@[simp] theorem State.writeStageCfg_pending (s : State) (v : Word) : (s.writeStageCfg v).pending = s.pending := rfl

@[simp] theorem State.writePatrolCfg_bus (s : State) (v : Word) : (s.writePatrolCfg v).bus = s.bus := rfl
@[simp] theorem State.writePatrolCfg_cmd (s : State) (v : Word) : (s.writePatrolCfg v).cmd = s.cmd := rfl
@[simp] theorem State.writePatrolCfg_rep (s : State) (v : Word) : (s.writePatrolCfg v).rep = s.rep := rfl
@[simp] theorem State.writePatrolCfg_ports (s : State) (v : Word) : (s.writePatrolCfg v).ports = s.ports := rfl
@[simp] theorem State.writePatrolCfg_buf (s : State) (v : Word) : (s.writePatrolCfg v).buf = s.buf := rfl
@[simp] theorem State.writePatrolCfg_trans (s : State) (v : Word) : (s.writePatrolCfg v).trans = s.trans := rfl
@[simp] theorem State.writePatrolCfg_rpr (s : State) (v : Word) : (s.writePatrolCfg v).rpr = s.rpr := rfl
@[simp] theorem State.writePatrolCfg_media (s : State) (v : Word) : (s.writePatrolCfg v).media = s.media := rfl
@[simp] theorem State.writePatrolCfg_gate (s : State) (v : Word) : (s.writePatrolCfg v).gate = s.gate := rfl
@[simp] theorem State.writePatrolCfg_store (s : State) (v : Word) : (s.writePatrolCfg v).store = s.store := rfl
@[simp] theorem State.writePatrolCfg_pending (s : State) (v : Word) : (s.writePatrolCfg v).pending = s.pending := rfl

@[simp] theorem State.writeWindow_bus (s : State) (r : WindowReg) (v : Word) : (s.writeWindow r v).bus = s.bus := by
  unfold State.writeWindow; split <;> first | rfl | (cases r <;> rfl)
@[simp] theorem State.writeWindow_cmd (s : State) (r : WindowReg) (v : Word) : (s.writeWindow r v).cmd = s.cmd := by
  unfold State.writeWindow; split <;> first | rfl | (cases r <;> rfl)
@[simp] theorem State.writeWindow_rep (s : State) (r : WindowReg) (v : Word) : (s.writeWindow r v).rep = s.rep := by
  unfold State.writeWindow; split <;> first | rfl | (cases r <;> rfl)
@[simp] theorem State.writeWindow_ports (s : State) (r : WindowReg) (v : Word) : (s.writeWindow r v).ports = s.ports := by
  unfold State.writeWindow; split <;> first | rfl | (cases r <;> rfl)
@[simp] theorem State.writeWindow_buf (s : State) (r : WindowReg) (v : Word) : (s.writeWindow r v).buf = s.buf := by
  unfold State.writeWindow; split <;> first | rfl | (cases r <;> rfl)
@[simp] theorem State.writeWindow_trans (s : State) (r : WindowReg) (v : Word) : (s.writeWindow r v).trans = s.trans := by
  unfold State.writeWindow; split <;> first | rfl | (cases r <;> rfl)
@[simp] theorem State.writeWindow_rpr (s : State) (r : WindowReg) (v : Word) : (s.writeWindow r v).rpr = s.rpr := by
  unfold State.writeWindow; split <;> first | rfl | (cases r <;> rfl)
@[simp] theorem State.writeWindow_media (s : State) (r : WindowReg) (v : Word) : (s.writeWindow r v).media = s.media := by
  unfold State.writeWindow; split <;> first | rfl | (cases r <;> rfl)
@[simp] theorem State.writeWindow_gate (s : State) (r : WindowReg) (v : Word) : (s.writeWindow r v).gate = s.gate := by
  unfold State.writeWindow; split <;> first | rfl | (cases r <;> rfl)
@[simp] theorem State.writeWindow_store (s : State) (r : WindowReg) (v : Word) : (s.writeWindow r v).store = s.store := by
  unfold State.writeWindow; split <;> first | rfl | (cases r <;> rfl)
@[simp] theorem State.writeWindow_pending (s : State) (r : WindowReg) (v : Word) : (s.writeWindow r v).pending = s.pending := by
  unfold State.writeWindow; split <;> first | rfl | (cases r <;> rfl)

@[simp] theorem State.writeView_bus (s : State) (r : ViewReg) (v : Word) : (s.writeView r v).bus = s.bus := by cases r <;> rfl
@[simp] theorem State.writeView_cmd (s : State) (r : ViewReg) (v : Word) : (s.writeView r v).cmd = s.cmd := by cases r <;> rfl
@[simp] theorem State.writeView_rep (s : State) (r : ViewReg) (v : Word) : (s.writeView r v).rep = s.rep := by cases r <;> rfl
@[simp] theorem State.writeView_ports (s : State) (r : ViewReg) (v : Word) : (s.writeView r v).ports = s.ports := by cases r <;> rfl
@[simp] theorem State.writeView_buf (s : State) (r : ViewReg) (v : Word) : (s.writeView r v).buf = s.buf := by cases r <;> rfl
@[simp] theorem State.writeView_rpr (s : State) (r : ViewReg) (v : Word) : (s.writeView r v).rpr = s.rpr := by cases r <;> rfl
@[simp] theorem State.writeView_media (s : State) (r : ViewReg) (v : Word) : (s.writeView r v).media = s.media := by cases r <;> rfl
@[simp] theorem State.writeView_gate (s : State) (r : ViewReg) (v : Word) : (s.writeView r v).gate = s.gate := by cases r <;> rfl
@[simp] theorem State.writeView_patrol (s : State) (r : ViewReg) (v : Word) : (s.writeView r v).patrol = s.patrol := by cases r <;> rfl
@[simp] theorem State.writeView_store (s : State) (r : ViewReg) (v : Word) : (s.writeView r v).store = s.store := by cases r <;> rfl
@[simp] theorem State.writeView_pending (s : State) (r : ViewReg) (v : Word) : (s.writeView r v).pending = s.pending := by cases r <;> rfl

@[simp] theorem State.readView_cmd (s : State) : s.readView.cmd = s.cmd := rfl
@[simp] theorem State.readView_rep (s : State) : s.readView.rep = s.rep := rfl
@[simp] theorem State.readView_ports (s : State) : s.readView.ports = s.ports := rfl
@[simp] theorem State.readView_buf (s : State) : s.readView.buf = s.buf := rfl
@[simp] theorem State.readView_rpr (s : State) : s.readView.rpr = s.rpr := rfl
@[simp] theorem State.readView_media (s : State) : s.readView.media = s.media := rfl
@[simp] theorem State.readView_gate (s : State) : s.readView.gate = s.gate := rfl
@[simp] theorem State.readView_patrol (s : State) : s.readView.patrol = s.patrol := rfl
@[simp] theorem State.readView_store (s : State) : s.readView.store = s.store := rfl
@[simp] theorem State.readView_pending (s : State) : s.readView.pending = s.pending := rfl

@[simp] theorem State.readWide_cmd (s : State) (r : WideReg) : (s.readWide r).cmd = s.cmd := by cases r <;> rfl
@[simp] theorem State.readWide_rep (s : State) (r : WideReg) : (s.readWide r).rep = s.rep := by cases r <;> rfl
@[simp] theorem State.readWide_ports (s : State) (r : WideReg) : (s.readWide r).ports = s.ports := by cases r <;> rfl
@[simp] theorem State.readWide_buf (s : State) (r : WideReg) : (s.readWide r).buf = s.buf := by cases r <;> rfl
@[simp] theorem State.readWide_trans (s : State) (r : WideReg) : (s.readWide r).trans = s.trans := by cases r <;> rfl
@[simp] theorem State.readWide_rpr (s : State) (r : WideReg) : (s.readWide r).rpr = s.rpr := by cases r <;> rfl
@[simp] theorem State.readWide_media (s : State) (r : WideReg) : (s.readWide r).media = s.media := by cases r <;> rfl
@[simp] theorem State.readWide_gate (s : State) (r : WideReg) : (s.readWide r).gate = s.gate := by cases r <;> rfl
@[simp] theorem State.readWide_patrol (s : State) (r : WideReg) : (s.readWide r).patrol = s.patrol := by cases r <;> rfl
@[simp] theorem State.readWide_store (s : State) (r : WideReg) : (s.readWide r).store = s.store := by cases r <;> rfl
@[simp] theorem State.readWide_pending (s : State) (r : WideReg) : (s.readWide r).pending = s.pending := by cases r <;> rfl

@[simp] theorem State.drive_cmd (s : State) (w : Word) : (s.drive w).cmd = s.cmd := rfl
@[simp] theorem State.drive_rep (s : State) (w : Word) : (s.drive w).rep = s.rep := rfl
@[simp] theorem State.drive_ports (s : State) (w : Word) : (s.drive w).ports = s.ports := rfl
@[simp] theorem State.drive_buf (s : State) (w : Word) : (s.drive w).buf = s.buf := rfl
@[simp] theorem State.drive_trans (s : State) (w : Word) : (s.drive w).trans = s.trans := rfl
@[simp] theorem State.drive_rpr (s : State) (w : Word) : (s.drive w).rpr = s.rpr := rfl
@[simp] theorem State.drive_media (s : State) (w : Word) : (s.drive w).media = s.media := rfl
@[simp] theorem State.drive_gate (s : State) (w : Word) : (s.drive w).gate = s.gate := rfl
@[simp] theorem State.drive_patrol (s : State) (w : Word) : (s.drive w).patrol = s.patrol := rfl
@[simp] theorem State.drive_store (s : State) (w : Word) : (s.drive w).store = s.store := rfl
@[simp] theorem State.drive_pending (s : State) (w : Word) : (s.drive w).pending = s.pending := rfl

@[simp] theorem State.pop_bus (s : State) : s.pop.bus = s.bus := by
  unfold State.pop; split <;> rfl
@[simp] theorem State.pop_ports (s : State) : s.pop.ports = s.ports := by
  unfold State.pop; split <;> rfl
@[simp] theorem State.pop_buf (s : State) : s.pop.buf = s.buf := by
  unfold State.pop; split <;> rfl
@[simp] theorem State.pop_trans (s : State) : s.pop.trans = s.trans := by
  unfold State.pop; split <;> rfl
@[simp] theorem State.pop_rpr (s : State) : s.pop.rpr = s.rpr := by
  unfold State.pop; split <;> rfl
@[simp] theorem State.pop_media (s : State) : s.pop.media = s.media := by
  unfold State.pop; split <;> rfl
@[simp] theorem State.pop_gate (s : State) : s.pop.gate = s.gate := by
  unfold State.pop; split <;> rfl
@[simp] theorem State.pop_patrol (s : State) : s.pop.patrol = s.patrol := by
  unfold State.pop; split <;> rfl
@[simp] theorem State.pop_store (s : State) : s.pop.store = s.store := by
  unfold State.pop; split <;> rfl
@[simp] theorem State.pop_pending (s : State) : s.pop.pending = s.pending := by
  unfold State.pop; split <;> rfl

@[simp] theorem Ev.setSlot_bus (e : Ev) (i : SlotIx) (x : Slot) : (e.setSlot i x).bus = e.bus := rfl
@[simp] theorem Ev.setSlot_cmd (e : Ev) (i : SlotIx) (x : Slot) : (e.setSlot i x).cmd = e.cmd := rfl
@[simp] theorem Ev.setSlot_rep (e : Ev) (i : SlotIx) (x : Slot) : (e.setSlot i x).rep = e.rep := rfl
@[simp] theorem Ev.setSlot_ports (e : Ev) (i : SlotIx) (x : Slot) : (e.setSlot i x).ports = e.ports := rfl
@[simp] theorem Ev.setSlot_trans (e : Ev) (i : SlotIx) (x : Slot) : (e.setSlot i x).trans = e.trans := rfl
@[simp] theorem Ev.setSlot_rpr (e : Ev) (i : SlotIx) (x : Slot) : (e.setSlot i x).rpr = e.rpr := rfl
@[simp] theorem Ev.setSlot_media (e : Ev) (i : SlotIx) (x : Slot) : (e.setSlot i x).media = e.media := rfl
@[simp] theorem Ev.setSlot_gate (e : Ev) (i : SlotIx) (x : Slot) : (e.setSlot i x).gate = e.gate := rfl
@[simp] theorem Ev.setSlot_patrol (e : Ev) (i : SlotIx) (x : Slot) : (e.setSlot i x).patrol = e.patrol := rfl
@[simp] theorem Ev.setSlot_store (e : Ev) (i : SlotIx) (x : Slot) : (e.setSlot i x).store = e.store := rfl
@[simp] theorem Ev.setSlot_pending (e : Ev) (i : SlotIx) (x : Slot) : (e.setSlot i x).pending = e.pending := rfl
@[simp] theorem Ev.setSlot_posted (e : Ev) (i : SlotIx) (x : Slot) : (e.setSlot i x).posted = e.posted := rfl
@[simp] theorem Ev.setSlot_order0 (e : Ev) (i : SlotIx) (x : Slot) : (e.setSlot i x).order0 = e.order0 := rfl
@[simp] theorem Ev.setSlot_flushKey (e : Ev) (i : SlotIx) (x : Slot) : (e.setSlot i x).flushKey = e.flushKey := rfl
@[simp] theorem Ev.setSlot_paused (e : Ev) (i : SlotIx) (x : Slot) : (e.setSlot i x).paused = e.paused := rfl

@[simp] theorem Ev.freeSlot_bus (e : Ev) (i : SlotIx) : (e.freeSlot i).bus = e.bus := rfl
@[simp] theorem Ev.freeSlot_cmd (e : Ev) (i : SlotIx) : (e.freeSlot i).cmd = e.cmd := rfl
@[simp] theorem Ev.freeSlot_rep (e : Ev) (i : SlotIx) : (e.freeSlot i).rep = e.rep := rfl
@[simp] theorem Ev.freeSlot_ports (e : Ev) (i : SlotIx) : (e.freeSlot i).ports = e.ports := rfl
@[simp] theorem Ev.freeSlot_trans (e : Ev) (i : SlotIx) : (e.freeSlot i).trans = e.trans := rfl
@[simp] theorem Ev.freeSlot_rpr (e : Ev) (i : SlotIx) : (e.freeSlot i).rpr = e.rpr := rfl
@[simp] theorem Ev.freeSlot_media (e : Ev) (i : SlotIx) : (e.freeSlot i).media = e.media := rfl
@[simp] theorem Ev.freeSlot_gate (e : Ev) (i : SlotIx) : (e.freeSlot i).gate = e.gate := rfl
@[simp] theorem Ev.freeSlot_patrol (e : Ev) (i : SlotIx) : (e.freeSlot i).patrol = e.patrol := rfl
@[simp] theorem Ev.freeSlot_store (e : Ev) (i : SlotIx) : (e.freeSlot i).store = e.store := rfl
@[simp] theorem Ev.freeSlot_pending (e : Ev) (i : SlotIx) : (e.freeSlot i).pending = e.pending := rfl
@[simp] theorem Ev.freeSlot_posted (e : Ev) (i : SlotIx) : (e.freeSlot i).posted = e.posted := rfl
@[simp] theorem Ev.freeSlot_order0 (e : Ev) (i : SlotIx) : (e.freeSlot i).order0 = e.order0 := rfl
@[simp] theorem Ev.freeSlot_flushKey (e : Ev) (i : SlotIx) : (e.freeSlot i).flushKey = e.flushKey := rfl
@[simp] theorem Ev.freeSlot_paused (e : Ev) (i : SlotIx) : (e.freeSlot i).paused = e.paused := rfl

@[simp] theorem Ev.setTag_bus (e : Ev) (t : Tag) (r : TagRec) : (e.setTag t r).bus = e.bus := rfl
@[simp] theorem Ev.setTag_rep (e : Ev) (t : Tag) (r : TagRec) : (e.setTag t r).rep = e.rep := rfl
@[simp] theorem Ev.setTag_ports (e : Ev) (t : Tag) (r : TagRec) : (e.setTag t r).ports = e.ports := rfl
@[simp] theorem Ev.setTag_buf (e : Ev) (t : Tag) (r : TagRec) : (e.setTag t r).buf = e.buf := rfl
@[simp] theorem Ev.setTag_trans (e : Ev) (t : Tag) (r : TagRec) : (e.setTag t r).trans = e.trans := rfl
@[simp] theorem Ev.setTag_rpr (e : Ev) (t : Tag) (r : TagRec) : (e.setTag t r).rpr = e.rpr := rfl
@[simp] theorem Ev.setTag_media (e : Ev) (t : Tag) (r : TagRec) : (e.setTag t r).media = e.media := rfl
@[simp] theorem Ev.setTag_gate (e : Ev) (t : Tag) (r : TagRec) : (e.setTag t r).gate = e.gate := rfl
@[simp] theorem Ev.setTag_patrol (e : Ev) (t : Tag) (r : TagRec) : (e.setTag t r).patrol = e.patrol := rfl
@[simp] theorem Ev.setTag_store (e : Ev) (t : Tag) (r : TagRec) : (e.setTag t r).store = e.store := rfl
@[simp] theorem Ev.setTag_pending (e : Ev) (t : Tag) (r : TagRec) : (e.setTag t r).pending = e.pending := rfl
@[simp] theorem Ev.setTag_posted (e : Ev) (t : Tag) (r : TagRec) : (e.setTag t r).posted = e.posted := rfl
@[simp] theorem Ev.setTag_order0 (e : Ev) (t : Tag) (r : TagRec) : (e.setTag t r).order0 = e.order0 := rfl
@[simp] theorem Ev.setTag_flushKey (e : Ev) (t : Tag) (r : TagRec) : (e.setTag t r).flushKey = e.flushKey := rfl
@[simp] theorem Ev.setTag_paused (e : Ev) (t : Tag) (r : TagRec) : (e.setTag t r).paused = e.paused := rfl

@[simp] theorem Ev.blockDone_bus (e : Ev) (t : Tag) : (e.blockDone t).bus = e.bus := rfl
@[simp] theorem Ev.blockDone_rep (e : Ev) (t : Tag) : (e.blockDone t).rep = e.rep := rfl
@[simp] theorem Ev.blockDone_ports (e : Ev) (t : Tag) : (e.blockDone t).ports = e.ports := rfl
@[simp] theorem Ev.blockDone_buf (e : Ev) (t : Tag) : (e.blockDone t).buf = e.buf := rfl
@[simp] theorem Ev.blockDone_trans (e : Ev) (t : Tag) : (e.blockDone t).trans = e.trans := rfl
@[simp] theorem Ev.blockDone_rpr (e : Ev) (t : Tag) : (e.blockDone t).rpr = e.rpr := rfl
@[simp] theorem Ev.blockDone_media (e : Ev) (t : Tag) : (e.blockDone t).media = e.media := rfl
@[simp] theorem Ev.blockDone_gate (e : Ev) (t : Tag) : (e.blockDone t).gate = e.gate := rfl
@[simp] theorem Ev.blockDone_patrol (e : Ev) (t : Tag) : (e.blockDone t).patrol = e.patrol := rfl
@[simp] theorem Ev.blockDone_store (e : Ev) (t : Tag) : (e.blockDone t).store = e.store := rfl
@[simp] theorem Ev.blockDone_pending (e : Ev) (t : Tag) : (e.blockDone t).pending = e.pending := rfl
@[simp] theorem Ev.blockDone_posted (e : Ev) (t : Tag) : (e.blockDone t).posted = e.posted := rfl
@[simp] theorem Ev.blockDone_order0 (e : Ev) (t : Tag) : (e.blockDone t).order0 = e.order0 := rfl
@[simp] theorem Ev.blockDone_flushKey (e : Ev) (t : Tag) : (e.blockDone t).flushKey = e.flushKey := rfl
@[simp] theorem Ev.blockDone_paused (e : Ev) (t : Tag) : (e.blockDone t).paused = e.paused := rfl

@[simp] theorem Ev.notice_bus (e : Ev) (n : Notice) : (e.notice n).bus = e.bus := by
  unfold Ev.notice; split <;> rfl
@[simp] theorem Ev.notice_cmd (e : Ev) (n : Notice) : (e.notice n).cmd = e.cmd := by
  unfold Ev.notice; split <;> rfl
@[simp] theorem Ev.notice_ports (e : Ev) (n : Notice) : (e.notice n).ports = e.ports := by
  unfold Ev.notice; split <;> rfl
@[simp] theorem Ev.notice_buf (e : Ev) (n : Notice) : (e.notice n).buf = e.buf := by
  unfold Ev.notice; split <;> rfl
@[simp] theorem Ev.notice_trans (e : Ev) (n : Notice) : (e.notice n).trans = e.trans := by
  unfold Ev.notice; split <;> rfl
@[simp] theorem Ev.notice_rpr (e : Ev) (n : Notice) : (e.notice n).rpr = e.rpr := by
  unfold Ev.notice; split <;> rfl
@[simp] theorem Ev.notice_media (e : Ev) (n : Notice) : (e.notice n).media = e.media := by
  unfold Ev.notice; split <;> rfl
@[simp] theorem Ev.notice_gate (e : Ev) (n : Notice) : (e.notice n).gate = e.gate := by
  unfold Ev.notice; split <;> rfl
@[simp] theorem Ev.notice_patrol (e : Ev) (n : Notice) : (e.notice n).patrol = e.patrol := by
  unfold Ev.notice; split <;> rfl
@[simp] theorem Ev.notice_store (e : Ev) (n : Notice) : (e.notice n).store = e.store := by
  unfold Ev.notice; split <;> rfl
@[simp] theorem Ev.notice_pending (e : Ev) (n : Notice) : (e.notice n).pending = e.pending := by
  unfold Ev.notice; split <;> rfl
@[simp] theorem Ev.notice_posted (e : Ev) (n : Notice) : (e.notice n).posted = e.posted := by
  unfold Ev.notice; split <;> rfl
@[simp] theorem Ev.notice_order0 (e : Ev) (n : Notice) : (e.notice n).order0 = e.order0 := by
  unfold Ev.notice; split <;> rfl
@[simp] theorem Ev.notice_flushKey (e : Ev) (n : Notice) : (e.notice n).flushKey = e.flushKey := by
  unfold Ev.notice; split <;> rfl
@[simp] theorem Ev.notice_paused (e : Ev) (n : Notice) : (e.notice n).paused = e.paused := by
  unfold Ev.notice; split <;> rfl

@[simp] theorem Ev.completeAfter_bus (e : Ev) (k : Nat) (t : Tag) (st : Status) (n : Lba) : (e.completeAfter k t st n).bus = e.bus := by
  unfold Ev.completeAfter; split <;> rfl
@[simp] theorem Ev.completeAfter_rep (e : Ev) (k : Nat) (t : Tag) (st : Status) (n : Lba) : (e.completeAfter k t st n).rep = e.rep := by
  unfold Ev.completeAfter; split <;> rfl
@[simp] theorem Ev.completeAfter_ports (e : Ev) (k : Nat) (t : Tag) (st : Status) (n : Lba) : (e.completeAfter k t st n).ports = e.ports := by
  unfold Ev.completeAfter; split <;> rfl
@[simp] theorem Ev.completeAfter_buf (e : Ev) (k : Nat) (t : Tag) (st : Status) (n : Lba) : (e.completeAfter k t st n).buf = e.buf := by
  unfold Ev.completeAfter; split <;> rfl
@[simp] theorem Ev.completeAfter_trans (e : Ev) (k : Nat) (t : Tag) (st : Status) (n : Lba) : (e.completeAfter k t st n).trans = e.trans := by
  unfold Ev.completeAfter; split <;> rfl
@[simp] theorem Ev.completeAfter_rpr (e : Ev) (k : Nat) (t : Tag) (st : Status) (n : Lba) : (e.completeAfter k t st n).rpr = e.rpr := by
  unfold Ev.completeAfter; split <;> rfl
@[simp] theorem Ev.completeAfter_media (e : Ev) (k : Nat) (t : Tag) (st : Status) (n : Lba) : (e.completeAfter k t st n).media = e.media := by
  unfold Ev.completeAfter; split <;> rfl
@[simp] theorem Ev.completeAfter_gate (e : Ev) (k : Nat) (t : Tag) (st : Status) (n : Lba) : (e.completeAfter k t st n).gate = e.gate := by
  unfold Ev.completeAfter; split <;> rfl
@[simp] theorem Ev.completeAfter_patrol (e : Ev) (k : Nat) (t : Tag) (st : Status) (n : Lba) : (e.completeAfter k t st n).patrol = e.patrol := by
  unfold Ev.completeAfter; split <;> rfl
@[simp] theorem Ev.completeAfter_store (e : Ev) (k : Nat) (t : Tag) (st : Status) (n : Lba) : (e.completeAfter k t st n).store = e.store := by
  unfold Ev.completeAfter; split <;> rfl
@[simp] theorem Ev.completeAfter_pending (e : Ev) (k : Nat) (t : Tag) (st : Status) (n : Lba) : (e.completeAfter k t st n).pending = e.pending := by
  unfold Ev.completeAfter; split <;> rfl
@[simp] theorem Ev.completeAfter_order0 (e : Ev) (k : Nat) (t : Tag) (st : Status) (n : Lba) : (e.completeAfter k t st n).order0 = e.order0 := by
  unfold Ev.completeAfter; split <;> rfl
@[simp] theorem Ev.completeAfter_flushKey (e : Ev) (k : Nat) (t : Tag) (st : Status) (n : Lba) : (e.completeAfter k t st n).flushKey = e.flushKey := by
  unfold Ev.completeAfter; split <;> rfl
@[simp] theorem Ev.completeAfter_paused (e : Ev) (k : Nat) (t : Tag) (st : Status) (n : Lba) : (e.completeAfter k t st n).paused = e.paused := by
  unfold Ev.completeAfter; split <;> rfl

@[simp] theorem Ev.complete_bus (e : Ev) (t : Tag) (st : Status) (n : Lba) : (e.complete t st n).bus = e.bus := by
  unfold Ev.complete Ev.completeAfter; split <;> rfl
@[simp] theorem Ev.complete_rep (e : Ev) (t : Tag) (st : Status) (n : Lba) : (e.complete t st n).rep = e.rep := by
  unfold Ev.complete Ev.completeAfter; split <;> rfl
@[simp] theorem Ev.complete_ports (e : Ev) (t : Tag) (st : Status) (n : Lba) : (e.complete t st n).ports = e.ports := by
  unfold Ev.complete Ev.completeAfter; split <;> rfl
@[simp] theorem Ev.complete_buf (e : Ev) (t : Tag) (st : Status) (n : Lba) : (e.complete t st n).buf = e.buf := by
  unfold Ev.complete Ev.completeAfter; split <;> rfl
@[simp] theorem Ev.complete_trans (e : Ev) (t : Tag) (st : Status) (n : Lba) : (e.complete t st n).trans = e.trans := by
  unfold Ev.complete Ev.completeAfter; split <;> rfl
@[simp] theorem Ev.complete_rpr (e : Ev) (t : Tag) (st : Status) (n : Lba) : (e.complete t st n).rpr = e.rpr := by
  unfold Ev.complete Ev.completeAfter; split <;> rfl
@[simp] theorem Ev.complete_media (e : Ev) (t : Tag) (st : Status) (n : Lba) : (e.complete t st n).media = e.media := by
  unfold Ev.complete Ev.completeAfter; split <;> rfl
@[simp] theorem Ev.complete_gate (e : Ev) (t : Tag) (st : Status) (n : Lba) : (e.complete t st n).gate = e.gate := by
  unfold Ev.complete Ev.completeAfter; split <;> rfl
@[simp] theorem Ev.complete_patrol (e : Ev) (t : Tag) (st : Status) (n : Lba) : (e.complete t st n).patrol = e.patrol := by
  unfold Ev.complete Ev.completeAfter; split <;> rfl
@[simp] theorem Ev.complete_store (e : Ev) (t : Tag) (st : Status) (n : Lba) : (e.complete t st n).store = e.store := by
  unfold Ev.complete Ev.completeAfter; split <;> rfl
@[simp] theorem Ev.complete_pending (e : Ev) (t : Tag) (st : Status) (n : Lba) : (e.complete t st n).pending = e.pending := by
  unfold Ev.complete Ev.completeAfter; split <;> rfl
@[simp] theorem Ev.complete_order0 (e : Ev) (t : Tag) (st : Status) (n : Lba) : (e.complete t st n).order0 = e.order0 := by
  unfold Ev.complete Ev.completeAfter; split <;> rfl
@[simp] theorem Ev.complete_flushKey (e : Ev) (t : Tag) (st : Status) (n : Lba) : (e.complete t st n).flushKey = e.flushKey := by
  unfold Ev.complete Ev.completeAfter; split <;> rfl
@[simp] theorem Ev.complete_paused (e : Ev) (t : Tag) (st : Status) (n : Lba) : (e.complete t st n).paused = e.paused := by
  unfold Ev.complete Ev.completeAfter; split <;> rfl

@[simp] theorem Ev.addJob_bus (e : Ev) (j : Job) : (e.addJob j).bus = e.bus := rfl
@[simp] theorem Ev.addJob_cmd (e : Ev) (j : Job) : (e.addJob j).cmd = e.cmd := rfl
@[simp] theorem Ev.addJob_rep (e : Ev) (j : Job) : (e.addJob j).rep = e.rep := rfl
@[simp] theorem Ev.addJob_ports (e : Ev) (j : Job) : (e.addJob j).ports = e.ports := rfl
@[simp] theorem Ev.addJob_buf (e : Ev) (j : Job) : (e.addJob j).buf = e.buf := rfl
@[simp] theorem Ev.addJob_trans (e : Ev) (j : Job) : (e.addJob j).trans = e.trans := rfl
@[simp] theorem Ev.addJob_rpr (e : Ev) (j : Job) : (e.addJob j).rpr = e.rpr := rfl
@[simp] theorem Ev.addJob_gate (e : Ev) (j : Job) : (e.addJob j).gate = e.gate := rfl
@[simp] theorem Ev.addJob_patrol (e : Ev) (j : Job) : (e.addJob j).patrol = e.patrol := rfl
@[simp] theorem Ev.addJob_store (e : Ev) (j : Job) : (e.addJob j).store = e.store := rfl
@[simp] theorem Ev.addJob_pending (e : Ev) (j : Job) : (e.addJob j).pending = e.pending := rfl
@[simp] theorem Ev.addJob_posted (e : Ev) (j : Job) : (e.addJob j).posted = e.posted := rfl
@[simp] theorem Ev.addJob_order0 (e : Ev) (j : Job) : (e.addJob j).order0 = e.order0 := rfl
@[simp] theorem Ev.addJob_flushKey (e : Ev) (j : Job) : (e.addJob j).flushKey = e.flushKey := rfl
@[simp] theorem Ev.addJob_paused (e : Ev) (j : Job) : (e.addJob j).paused = e.paused := rfl

@[simp] theorem Ev.unbind_bus (e : Ev) (t : Tag) : (e.unbind t).bus = e.bus := rfl
@[simp] theorem Ev.unbind_cmd (e : Ev) (t : Tag) : (e.unbind t).cmd = e.cmd := rfl
@[simp] theorem Ev.unbind_rep (e : Ev) (t : Tag) : (e.unbind t).rep = e.rep := rfl
@[simp] theorem Ev.unbind_buf (e : Ev) (t : Tag) : (e.unbind t).buf = e.buf := rfl
@[simp] theorem Ev.unbind_trans (e : Ev) (t : Tag) : (e.unbind t).trans = e.trans := rfl
@[simp] theorem Ev.unbind_rpr (e : Ev) (t : Tag) : (e.unbind t).rpr = e.rpr := rfl
@[simp] theorem Ev.unbind_media (e : Ev) (t : Tag) : (e.unbind t).media = e.media := rfl
@[simp] theorem Ev.unbind_gate (e : Ev) (t : Tag) : (e.unbind t).gate = e.gate := rfl
@[simp] theorem Ev.unbind_patrol (e : Ev) (t : Tag) : (e.unbind t).patrol = e.patrol := rfl
@[simp] theorem Ev.unbind_store (e : Ev) (t : Tag) : (e.unbind t).store = e.store := rfl
@[simp] theorem Ev.unbind_pending (e : Ev) (t : Tag) : (e.unbind t).pending = e.pending := rfl
@[simp] theorem Ev.unbind_posted (e : Ev) (t : Tag) : (e.unbind t).posted = e.posted := rfl
@[simp] theorem Ev.unbind_order0 (e : Ev) (t : Tag) : (e.unbind t).order0 = e.order0 := rfl
@[simp] theorem Ev.unbind_flushKey (e : Ev) (t : Tag) : (e.unbind t).flushKey = e.flushKey := rfl
@[simp] theorem Ev.unbind_paused (e : Ev) (t : Tag) : (e.unbind t).paused = e.paused := rfl

@[simp] theorem Ev.popRepair_bus (e : Ev) : e.popRepair.bus = e.bus := rfl
@[simp] theorem Ev.popRepair_cmd (e : Ev) : e.popRepair.cmd = e.cmd := rfl
@[simp] theorem Ev.popRepair_rep (e : Ev) : e.popRepair.rep = e.rep := rfl
@[simp] theorem Ev.popRepair_ports (e : Ev) : e.popRepair.ports = e.ports := rfl
@[simp] theorem Ev.popRepair_buf (e : Ev) : e.popRepair.buf = e.buf := rfl
@[simp] theorem Ev.popRepair_trans (e : Ev) : e.popRepair.trans = e.trans := rfl
@[simp] theorem Ev.popRepair_media (e : Ev) : e.popRepair.media = e.media := rfl
@[simp] theorem Ev.popRepair_gate (e : Ev) : e.popRepair.gate = e.gate := rfl
@[simp] theorem Ev.popRepair_patrol (e : Ev) : e.popRepair.patrol = e.patrol := rfl
@[simp] theorem Ev.popRepair_store (e : Ev) : e.popRepair.store = e.store := rfl
@[simp] theorem Ev.popRepair_pending (e : Ev) : e.popRepair.pending = e.pending := rfl
@[simp] theorem Ev.popRepair_posted (e : Ev) : e.popRepair.posted = e.posted := rfl
@[simp] theorem Ev.popRepair_order0 (e : Ev) : e.popRepair.order0 = e.order0 := rfl
@[simp] theorem Ev.popRepair_flushKey (e : Ev) : e.popRepair.flushKey = e.flushKey := rfl
@[simp] theorem Ev.popRepair_paused (e : Ev) : e.popRepair.paused = e.paused := rfl

@[simp] theorem Ev.issue_bus (e : Ev) (j : Job) : (e.issue j).bus = e.bus := rfl
@[simp] theorem Ev.issue_cmd (e : Ev) (j : Job) : (e.issue j).cmd = e.cmd := rfl
@[simp] theorem Ev.issue_rep (e : Ev) (j : Job) : (e.issue j).rep = e.rep := rfl
@[simp] theorem Ev.issue_ports (e : Ev) (j : Job) : (e.issue j).ports = e.ports := rfl
@[simp] theorem Ev.issue_buf (e : Ev) (j : Job) : (e.issue j).buf = e.buf := rfl
@[simp] theorem Ev.issue_trans (e : Ev) (j : Job) : (e.issue j).trans = e.trans := rfl
@[simp] theorem Ev.issue_rpr (e : Ev) (j : Job) : (e.issue j).rpr = e.rpr := rfl
@[simp] theorem Ev.issue_gate (e : Ev) (j : Job) : (e.issue j).gate = e.gate := rfl
@[simp] theorem Ev.issue_store (e : Ev) (j : Job) : (e.issue j).store = e.store := rfl
@[simp] theorem Ev.issue_pending (e : Ev) (j : Job) : (e.issue j).pending = e.pending := rfl
@[simp] theorem Ev.issue_posted (e : Ev) (j : Job) : (e.issue j).posted = e.posted := rfl
@[simp] theorem Ev.issue_order0 (e : Ev) (j : Job) : (e.issue j).order0 = e.order0 := rfl
@[simp] theorem Ev.issue_flushKey (e : Ev) (j : Job) : (e.issue j).flushKey = e.flushKey := rfl
@[simp] theorem Ev.issue_paused (e : Ev) (j : Job) : (e.issue j).paused = e.paused := rfl

@[simp] theorem Ev.finish_bus (e : Ev) : e.finish.bus = e.bus := rfl
@[simp] theorem Ev.finish_cmd (e : Ev) : e.finish.cmd = e.cmd := rfl
@[simp] theorem Ev.finish_ports (e : Ev) : e.finish.ports = e.ports := rfl
@[simp] theorem Ev.finish_buf (e : Ev) : e.finish.buf = e.buf := rfl
@[simp] theorem Ev.finish_trans (e : Ev) : e.finish.trans = e.trans := rfl
@[simp] theorem Ev.finish_rpr (e : Ev) : e.finish.rpr = e.rpr := rfl
@[simp] theorem Ev.finish_media (e : Ev) : e.finish.media = e.media := rfl
@[simp] theorem Ev.finish_gate (e : Ev) : e.finish.gate = e.gate := rfl
@[simp] theorem Ev.finish_patrol (e : Ev) : e.finish.patrol = e.patrol := rfl
@[simp] theorem Ev.finish_store (e : Ev) : e.finish.store = e.store := rfl
@[simp] theorem Ev.finish_pending (e : Ev) : e.finish.pending = e.pending := rfl
@[simp] theorem State.begin_bus (s : State) : s.begin.bus = s.bus := rfl
@[simp] theorem State.begin_cmd (s : State) : s.begin.cmd = s.cmd := rfl
@[simp] theorem State.begin_rep (s : State) : s.begin.rep = s.rep := rfl
@[simp] theorem State.begin_ports (s : State) : s.begin.ports = s.ports := rfl
@[simp] theorem State.begin_buf (s : State) : s.begin.buf = s.buf := rfl
@[simp] theorem State.begin_trans (s : State) : s.begin.trans = s.trans := rfl
@[simp] theorem State.begin_rpr (s : State) : s.begin.rpr = s.rpr := rfl
@[simp] theorem State.begin_media (s : State) : s.begin.media = s.media := rfl
@[simp] theorem State.begin_gate (s : State) : s.begin.gate = s.gate := rfl
@[simp] theorem State.begin_patrol (s : State) : s.begin.patrol = s.patrol := rfl
@[simp] theorem State.begin_store (s : State) : s.begin.store = s.store := rfl
@[simp] theorem State.begin_pending (s : State) : s.begin.pending = s.pending := rfl

@[simp] theorem Ev.finish_recs (e : Ev) : e.finish.rep.recs = e.rep.recs ++ e.posted.map (·.report) := rfl
@[simp] theorem Ev.finish_noticeLost (e : Ev) : e.finish.rep.noticeLost = e.rep.noticeLost := rfl
@[simp] theorem State.begin_posted (s : State) : s.begin.posted = [] := rfl
@[simp] theorem State.begin_order0 (s : State) : s.begin.order0 = s.cmd.order := rfl
@[simp] theorem State.begin_paused (s : State) : s.begin.paused = false := rfl

@[simp] theorem Ports.get_set (p : Ports) (i : PortId) (x : Port) : (p.set i x).get i = x := by cases i <;> rfl
@[simp] theorem Ports.set_wait (p : Ports) (i : PortId) (x : Port) : (p.set i x).wait = p.wait := by cases i <;> rfl

/-- An access with RESET_N asserted leaves the part as it is (R185). -/
@[simp] theorem State.access_reset (f : State → State) (s : State) (h : s.bus.resetLow = true) : s.access f = s := by
  simp [State.access, h]

/-- An access with RESET_N released is taken. -/
@[simp] theorem State.access_taken (f : State → State) (s : State) (h : s.bus.resetLow = false) : s.access f = f s := by
  simp [State.access, h]

/-- A read with RESET_N asserted drives nothing (R185). -/
@[simp] theorem State.readAt_reset (a : BitVec 6) (s : State) (h : s.bus.resetLow = true) : s.readAt a = s :=
  State.access_reset _ s h

/-- A read of DATA drives the word that the register has (R90, R93). -/
theorem State.readData_readout (p : PortId) (s : State) : (s.readData p).bus.readout = some (s.dataWord p) := by
  cases hb : (s.ports.get p).bound with
  | none => simp only [State.readData, State.dataWord, hb]; rfl
  | some b =>
    cases hd : b.dir <;> cases hs : s.deliverable b <;> simp only [State.readData, State.dataWord, hb, hd, hs] <;> rfl

/-- A read drives the value that the register has (R185). -/
theorem State.readReg_readout (a : BitVec 6) (s : State) : (s.readReg a).bus.readout = some (s.regValue a) := by
  unfold State.readReg State.regValue
  split <;> rename_i h
  case h_1 => rw [h]; exact State.readData_readout .p0 s
  case h_2 => rw [h]; exact State.readData_readout .p1 s
  case h_3 => rw [h]; rfl
  case h_4 => rw [h]; rfl
  case h_5 => rw [h]; rfl
  case h_6 => rw [h]; rfl
  case h_7 => rfl

/-- A read with RESET_N released drives the value that the register has (R185). -/
theorem State.readAt_readout (a : BitVec 6) (s : State) (h : s.bus.resetLow = false) :
    (s.readAt a).bus.readout = some (s.regValue a) := by
  rw [State.readAt, State.access_taken _ s h]; exact State.readReg_readout a s

end Sys2Proof.Machine
end

