-- ==== Sys2Proof/Tests/Slice0.lean ====
section
/-! SUPPORT. Tests/Slice0.lean: the smoke test of WellFormed, one-step tests on small states, and for every obligation with
hypotheses a state and operands that meet them together. -/

namespace Sys2Proof.Tests

-- One theorem after another: fewer threads, and so less memory, while the file compiles.
set_option Elab.async false

open Sys2Proof Sys2Proof.Machine

/-! ## WellFormed refuses what it should -/

theorem test_wf_badOpcode_of_opcode : (Instr.badOpcode 1).wf = false ∧ (Instr.badOpcode 8).wf = false := by decide
theorem test_wf_badOpcode : (Instr.badOpcode 0).wf = true ∧ (Instr.badOpcode 9).wf = true := by decide
theorem test_wf_gateReopen_without_bit7 : (Instr.gateReopen 0x7F).wf = false ∧ (Instr.gateReopen 0x80).wf = true := by
  decide
theorem test_wf_patrolEnable_without_bit1 : (Instr.patrolEnable 0).wf = false ∧ (Instr.patrolEnable 2).wf = true := by
  decide
theorem test_wf_patrolDisable_with_bit1 : (Instr.patrolDisable 2).wf = false ∧ (Instr.patrolDisable 0).wf = true := by
  decide
theorem test_wf_softReset_without_bit5 : (Instr.softReset 0).wf = false ∧ (Instr.softReset 0x20).wf = true := by decide
theorem test_wf_discard_without_bit6 : (Instr.discard 0).wf = false ∧ (Instr.discard 0x40).wf = true := by decide
theorem test_wf_registerWrite_own_row : (Instr.registerWrite 6 1).wf = false ∧ (Instr.registerWrite 2 1).wf = true := by
  decide
theorem test_wf_registerWrite_control_request :
    (Instr.registerWrite 0 0x20).wf = false ∧ (Instr.registerWrite 0 0x0D).wf = true := by decide
theorem test_wf_response_level :
    (Instr.responseFrame { seq := 0, body := .goodVerify 8 }).wf = false
      ∧ (Instr.responseFrame { seq := 0, body := .goodVerify 7 }).wf = true := by decide
theorem test_wf_response_short_block :
    (Instr.responseFrame { seq := 0, body := .goodRead 0 (.words []) }).wf = false
      ∧ (Instr.responseFrame { seq := 0, body := .goodRead 0 (.words (List.replicate 256 0)) }).wf = true := by
  decide +kernel
theorem test_wf_response_table_block :
    (Instr.responseFrame { seq := 0, body := .goodRead 0 (.table
        { p := 0, s := 0, l := 0, gen := 0, remap := [], spares := [], suspects := [] } 8) }).wf = false := by decide

/-! ## States to test on -/

/-- What a command answers. -/
def after (c : Instr) (s : State) : State :=
  match exec c s with
  | .next t => t
  | .fault _ => s
  | .refused _ => s

/-- READY with 16 FREE spares on a unit of 10032 blocks, the link idle. -/
def ready : State :=
  { State.reset with
    trans := { State.reset.trans with
      spareCount := 16, blocks := 10000, spares := List.replicate 16 .free, armed := true }
    media := { State.inReset.media with cap := some 10032 }
    store := { State.reset.store with run := .ready, copyA := .valid 1, copyB := .valid 2 } }

/-- READY with one tag at 0, its record and slot 0 given. -/
def withTag (r : TagRec) (x : Slot) : State :=
  { ready with
    cmd := { ready.cmd with tags := r :: List.replicate 7 TagRec.empty, order := [0] }
    buf := { ready.buf with slots := x :: List.replicate 63 Slot.empty } }

/-- A tag record. -/
def rec (o : Opcode) (st : TagState) : TagRec := { TagRec.empty with st := st, op := some o, lba := 5, count := 1 }

/-- A slot that holds LBA 5. -/
def slot5 (st : SlotState) (d : List Word) : Slot := { Slot.empty with st := st, lba := some 5, data := d }

/-- An op on the link for a job. -/
def onLink (op : LinkOp) (j : Option Job) (s : State) : State :=
  { s with media := { s.media with
      link := some { seq := 3, op := op, job := j, orphan := none }, seq := 4, opTimer := some 50 } }

/-- A load of LBA 5 into slot 0 for tag 0. -/
def loadJob : Job := newJob .host (.tag 0) .read (.lba 5) (some (.slot 0))

/-- A patrol VERIFY. -/
def patrolJob0 : Job := newJob .patrol .patrol .verify (.lba 0) none

/-- A quiesce that came from READY. -/
def quiescing : State := { ready with store := { ready.store with run := .quiesce, ret := some .ready } }

/-- A binding of tag 0 at a word of block 0. -/
def bindAt (d : Dir) (w : Nat) (s : State) : State :=
  { s with ports := { s.ports with p0 := { bound := some { tag := 0, dir := d, block := 0, word := w }, empty := false } } }

/-- A READ of one block, its slot claimed and deliverable. -/
def reading (w : Nat) : State :=
  bindAt .read w (withTag { rec .read .active with looked := 1, claims := [(0, 0)] }
    { slot5 .clean (List.replicate 256 7) with claims := 1 })

/-- A WRITE of one block, its slot FILLING. -/
def writing (w : Nat) : State :=
  bindAt .write w (withTag (rec .write .active) { slot5 .filling (List.replicate w 7) with owner := some (.tag 0) })

/-- A repair-queue entry of LBA 5. -/
def entry5 : RepairEntry :=
  { kind := .relocate, lba := 5, origin := .software, slot := none, relTag := none, wtTag := none }

/-! ## One step on a small state -/

theorem test_powerOn_is_reset : after .powerOn State.reset = State.reset := by decide +kernel
theorem test_reset_release_identifies :
    (after .resetLineRelease State.inReset).media.tx = some { seq := 0, op := .identify, pba := 0, data := none } := by
  decide
theorem test_reset_assert_counts_lost :
    (after .resetLineAssert (withTag (rec .read .queued) (slot5 .dirty []))).regValue 25 = 1 := by decide
theorem test_reset_values : State.reset.regValue 26 = 0x0553 ∧ State.reset.regValue 27 = 0x040C
    ∧ State.reset.regValue 28 = 0x0830 ∧ State.reset.regValue 29 = 0x0A08 := by decide
theorem test_status_at_reset : State.reset.regValue 1 = 0 ∧ State.reset.regValue 0 = 0 := by decide
theorem test_status_in_ready : ready.regValue 1 = 4 := by decide
theorem test_read_in_starting_refused : (after .read State.reset).regValue 7 = 0x0202 := by decide
theorem test_badOpcode_refused : (after (.badOpcode 9) State.reset).regValue 7 = 0x0102 := by decide
theorem test_flush_of_nothing_completes :
    (after .flush ready).rep.recs = [.completion 0 .good 0 0] ∧ (after .flush ready).regValue 9 = 0x0001 := by decide
theorem test_clearSuspect_of_none :
    (after .clearSuspect ready).rep.recs = [.completion 0 .notSuspect 0 0] := by decide
theorem test_releasePinned_of_none :
    (after .releasePinned ready).rep.recs = [.completion 0 .notPinned 0 0] := by decide
theorem test_read_binds_and_sends :
    (after .read { ready with cmd := { ready.cmd with lbaL := 5, count := 1 } }).media.tx
      = some { seq := 0, op := .read, pba := 5, data := none } := by decide
theorem test_verify_sends :
    (after .verify { ready with cmd := { ready.cmd with lbaL := 5, count := 1 } }).media.tx
      = some { seq := 0, op := .verify, pba := 5, data := none } := by decide
theorem test_write_gets_a_slot :
    ((after .write { ready with cmd := { ready.cmd with lbaL := 5, count := 1 } }).buf.slot 0).st = .filling := by decide
theorem test_relocate_reads :
    (after .relocate { ready with cmd := { ready.cmd with lbaL := 5 } }).media.tx
      = some { seq := 0, op := .read, pba := 5, data := none } := by decide
theorem test_prepare_writes_copyA :
    (after .prepare { ready with cmd := { ready.cmd with count := 16 } }).media.tx.map (fun f => (f.op, f.pba))
      = some (.write, 10016) := by decide +kernel
theorem test_abort_of_free_refused : (after (.abort 3) ready).regValue 1 = 0x0804 := by decide
theorem test_pop_frees :
    ((after (.reportPop 0) { ready with
        cmd := { ready.cmd with tags := { rec .flush .reported with lba := 0 } :: List.replicate 7 TagRec.empty }
        rep := { recs := [.completion 0 .good 0 0], noticeLost := false } }).cmd.tag 0).st = .free := by decide
theorem test_data_read : (after (.dataRead .p0) (reading 3)).bus.readout = some 7 := by decide
theorem test_data_read_completes :
    (after (.dataRead .p0) (reading 255)).rep.recs = [.completion 0 .good 1 5] := by decide +kernel
theorem test_data_write_completes :
    (after (.dataWrite .p0 9) { writing 255 with bus := { ready.bus with stageEn := true } }).rep.recs
      = [.completion 0 .good 1 5] := by decide +kernel
theorem test_data_write_through_sends :
    (after (.dataWrite .p0 9) (writing 255)).media.tx.map (fun f => (f.op, f.pba)) = some (.write, 5) := by decide +kernel
theorem test_plain_read_drives :
    (ready.readAt 27).bus.readout = some 0x040C ∧ (State.inReset.readAt 27).bus.readout = none := by decide
theorem test_gate_config_clamps : (after (.gateCfgWrite 0) ready).regValue 27 = 0x0100 := by decide
theorem test_table_view :
    (after .tableD0Read { ready with trans := { ready.trans with tableSel := 1 } }).bus.readout
      = some ((ready.viewEntry 1 0).d0) := by decide
theorem test_identify_answer_loads :
    (after (.responseFrame { seq := 0, body := .goodIdentify 10032 512 }) State.reset).media.tx
      = some { seq := 1, op := .read, pba := 10016, data := none } := by decide
theorem test_unit_fault_holds :
    (after (.responseFrame { seq := 3, body := .unitFault }) (onLink .verify (some patrolJob0) ready)).gate.st = .hold := by
  decide
theorem test_timeout_at_limit_latches :
    (after .opTimerExpiry (onLink .verify (some patrolJob0) { ready with gate := { ready.gate with tripLimit := 1 } })).gate.st
      = .latched := by decide
theorem test_fault_line_measures : (after .faultLineAssert ready).gate.filter = .measuring .us16 := by decide
theorem test_commit_starts :
    (after .commitStart { ready with store := { ready.store with dirty := true } }).store.commit
      = some { target := .a, gen := 3, block := 0 } := by decide
theorem test_quiesce_ends : (after .quiesceEnd quiescing).store.run = .ready := by decide
theorem test_soft_reset_of_idle_part_ends : (after (.softReset 0x20) ready).store.run = .ready := by
  decide +kernel
theorem test_patrol_enable_sends :
    (after (.patrolEnable 2) ready).media.tx = some { seq := 0, op := .verify, pba := 0, data := none } := by decide

/-- A VERIFY of two blocks, the second DIRTY in the buffer. -/
def verifying : State :=
  withTag { rec .verify .queued with lba := 4, count := 2 } (slot5 .dirty [])

theorem test_verify_skips_in_block_order :
    ((after .commandStart verifying).cmd.tag 0).done = 0
      ∧ (after .commandStart verifying).media.tx = some { seq := 0, op := .verify, pba := 4, data := none } := by decide

/-- An ACTIVE WRITE whose one owed block a repair holds. -/
def held5 : State :=
  { withTag (rec .write .active) { slot5 .writing [] with owner := some .repair } with
    rpr := { ready.rpr with queue := [{ kind := .remapWrite, lba := 5, origin := .writeFault, slot := some 0
                                        relTag := none, wtTag := some 0 }] }
    gate := { ready.gate with st := .hold } }

theorem test_latch_leaves_a_write_with_a_repair :
    let t := after (.gateCfgWrite 0x401) held5
    t.rep.recs = [.notice (.gateLatched 0)] ∧ t.rpr.queue.map (fun x => (x.wtTag, x.wtFormer)) = [(none, some 0)]
      ∧ (t.cmd.tag 0).st = .active ∧ t.owedBlocks 0 = 1 := by decide

theorem test_repair_without_a_spare_fails_the_write_it_is_owed :
    (after (.gateCfgWrite 0x401) { held5 with trans := { ready.trans with spares := List.replicate 16 .retired } }).rep.recs
      = [.notice (.gateLatched 0), .notice (.pinned 5), .completion 0 .writeFailed 0 5] := by decide

/-- An ACTIVE WRITE with two write-through slots under a LATCHED gate. -/
def twoThrough : State :=
  let x : Slot := { slot5 .writing [] with owner := some (.tag 0) }
  { withTag { rec .write .active with count := 2 } x with
    buf := { ready.buf with slots := x :: { x with lba := some 6 } :: List.replicate 62 Slot.empty }
    gate := { ready.gate with st := .latched } }

theorem test_through_job_under_latched_fails_the_write :
    (after .writeThroughJobCreate twoThrough).rep.recs = [.completion 0 .mediaUnavailable 0 5]
      ∧ (after .writeThroughJobCreate twoThrough).buf.slots.all (·.st == .free) = true := by decide

theorem test_late_patrol_answer_raises_pos :
    let late : State := onLink .verify (some patrolJob0) { ready with patrol := { ready.patrol with st := .interval, pos := 3 } }
    (after (.responseFrame { seq := 3, body := .goodVerify 0 }) { late with media := { late.media with
      link := late.media.link.map (fun o => { o with orphan := some .patrolQuiesce }) } }).patrol.pos = 4 := by decide

theorem test_patrol_of_one_held_block_stays_in_the_window :
    let p : Patrol := { ready.patrol with startL := 5, endL := 5, pos := 5, st := .running, interval := 0, burst := 1 }
    let s : State := onLink .verify (some { patrolJob0 with target := .lba 5 }) { ready with
      patrol := p, bus := { ready.bus with patrolCont := true }
      rpr := { ready.rpr with queue := [entry5], active := some { step := .commitWait, spare := none, place := none, covered := false } } }
    (after (.responseFrame { seq := 3, body := .goodVerify 0 }) s).patrol.pos = 5
      ∧ (after (.responseFrame { seq := 3, body := .goodVerify 0 }) s).patrol.st = .suspended := by decide +kernel

/-! ## For every obligation with hypotheses, what meets them together -/

theorem witness_StepRunsTheFrontCommand : ({ ready with pending := [.flush, .read] } : State).pending = .flush :: [.read] := rfl
theorem witness_StepRunsTheFrontCommand_idle : State.reset.pending = [] := rfl
theorem witness_CloseTakes_none_due : ready.begin.oneStep = none := rfl
theorem witness_CloseTakes_one_due :
    ∃ f, ({ ready with media := { ready.media with hostQ := [loadJob] } } : State).begin.oneStep = some f :=
  Option.isSome_iff_exists.mp (by decide)
theorem witness_CloseTakes_first :
    let e : Ev := (withTag (rec .flush .queued) Slot.empty).begin
    (∀ h ∈ [Ev.flushComplete?, Ev.wtCreate?, Ev.destageOffer?, Ev.admissionServe?, Ev.repairActivate?], h e = none)
      ∧ ∃ g, e.commandStart? = some g := by
  refine ⟨fun h hm => ?_, Option.isSome_iff_exists.mp (by decide)⟩
  simp only [List.mem_cons, List.not_mem_nil, or_false] at hm
  rcases hm with rfl | rfl | rfl | rfl | rfl <;> rfl
theorem witness_PowerOn : ready.bus.resetLow = false := rfl
theorem witness_ResetLine : ready.bus.resetLow = false ∧ State.inReset.bus.resetLow = true := ⟨rfl, rfl⟩
theorem witness_ResetLine_noAccess : busAccess .read = true ∧ State.inReset.bus.resetLow = true := ⟨rfl, rfl⟩

theorem witness_AcceptanceTests_badOpcode :
    commandWord (.badOpcode 0) = some 0 ∧ commandWord (.badOpcode 9) = some 9
      ∧ ((0 : Word).toNat = 0) ∧ 8 < (9 : Word).toNat ∧ State.reset.bus.resetLow = false := by decide
theorem witness_AcceptanceTests_notReady : opcodeOf 1 = some .read ∧ State.reset.NotAdmitted .read := by
  unfold State.NotAdmitted; decide
theorem witness_AcceptanceTests_busy :
    let s := withTag { rec .prepare .active with lba := 0 } Slot.empty
    ¬ s.NotAdmitted .read ∧ s.TestBusy .read := by
  unfold State.NotAdmitted State.TestBusy State.PrepareBarred; decide
theorem witness_AcceptanceTests_badParameter :
    let s : State := { ready with cmd := { ready.cmd with lbaL := 9990, count := 11 } }
    ¬ s.NotAdmitted .read ∧ ¬ s.TestBusy .read ∧ s.TestBadParameter .read := by
  unfold State.NotAdmitted State.TestBusy State.PrepareBarred State.TestBadParameter; decide
theorem witness_AcceptanceTests_full :
    let s : State := { ready with rep := { recs := List.replicate 32 (.notice (.pinned 0)), noticeLost := false } }
    ¬ s.NotAdmitted .flush ∧ ¬ s.TestBusy .flush ∧ ¬ s.TestBadParameter .flush ∧ s.TestFull := by
  unfold State.NotAdmitted State.TestBusy State.PrepareBarred State.TestBadParameter State.TestFull; decide

theorem witness_AcceptedCommand :
    let s : State := { ready with cmd := { ready.cmd with lbaL := 9990, count := 10 } }
    commandWord .read = some 1 ∧ opcodeOf 1 = some .read ∧ s.bus.resetLow = false ∧ s.Passes .read ∧ s.cmd.LowestFree 0 := by
  unfold State.Passes State.NotAdmitted State.TestBusy State.PrepareBarred State.TestBadParameter State.TestFull
    Cmd.LowestFree
  decide
theorem witness_AcceptedCommand_last_tag :
    let s : State := { ready with cmd := { ready.cmd with
      tags := List.replicate 7 (rec .verify .active) ++ [TagRec.empty], order := [0, 1, 2, 3, 4, 5, 6] } }
    commandWord .flush = some 4 ∧ opcodeOf 4 = some .flush ∧ s.bus.resetLow = false ∧ s.Passes .flush
      ∧ s.cmd.LowestFree 7 := by
  unfold State.Passes State.NotAdmitted State.TestBusy State.PrepareBarred State.TestBadParameter State.TestFull
    Cmd.LowestFree
  decide

theorem witness_AbortRefused :
    7 < (8 : Word).toNat ∧ (ready.cmd.tag (7 : Word).toNat).st = .free ∧ ready.bus.resetLow = false := by decide
theorem witness_AbortIgnored :
    let s := withTag (rec .write .aborting) Slot.empty
    (0 : Word).toNat ≤ 7 ∧ (s.cmd.tag 0).st = .aborting ∧ (s.cmd.tag 0).op = some .write := by decide
theorem witness_AbortOfAQueuedCommand :
    let s := withTag (rec .read .queued) Slot.empty
    s.bus.resetLow = false ∧ (s.cmd.tag (0 : Word).toNat).st = .queued ∧ (s.cmd.tag (0 : Word).toNat).op = some .read := by
  decide
theorem witness_AbortEndsAnActiveCommand (o : Opcode) :
    let s := withTag (rec o .active) Slot.empty
    s.bus.resetLow = false ∧ (0 : Word).toNat < s.cmd.tags.length ∧ (s.cmd.tag 0).st = .active
      ∧ (s.cmd.tag 0).op = some o := ⟨rfl, Nat.zero_lt_succ 7, rfl, rfl⟩
theorem witness_AbortEndsAnActiveCommand_owed :
    let s := withTag (rec .write .active) { slot5 .writing [] with owner := some (.tag 0) }
    s.bus.resetLow = false ∧ (0 : Word).toNat < s.cmd.tags.length ∧ (s.cmd.tag 0).st = .active
      ∧ (s.cmd.tag 0).op = some .write ∧ s.owedBlocks 0 ≠ 0 := by decide

theorem witness_PopRemovesTheHeadRecord :
    State.reset.rep.recs = []
      ∧ ({ recs := [.notice (.pinned 5)], noticeLost := false } : Rep).recs = .notice (.pinned 5) :: []
      ∧ ({ recs := [.completion 7 .good 0 0], noticeLost := false } : Rep).recs = .completion 7 .good 0 0 :: [] := by decide
theorem witness_PopRemovesTheHeadRecord_shows :
    NoticeShows (.remapped 2000 6 .writeFault) = (7, 0, 0, 6, 2000)
      ∧ NoticeShows (.loadResult .sizeMismatch .b 0x1FFFF) = (15, 1, 3, 0xFFFF, 0) := ⟨rfl, rfl⟩
/-- The two records that chapter 10 writes out, and the last code with its largest fields. -/
theorem test_report_words :
    let shows (r : Report) : List Word :=
      [9, 10, 11, 12].map ({ ready with rep := { recs := [r], noticeLost := false } } : State).regValue
    shows (.notice (.remapped 2000 6 .writeFault)) = [0x0702, 0x0006, 0x07D0, 0]
      ∧ shows (.completion 3 .good 0 2000) = [0x000D, 0, 0x07D0, 0]
      ∧ shows (.notice (.loadResult .sizeMismatch .b 0x1FFFF)) = [0x7F02, 0xFFFF, 0, 0]
      ∧ shows (.completion 7 .tableWriteFailed 64 0xFFFFFFF) = [0x0B1D, 64, 0xFFFF, 0x0FFF] := by decide
theorem witness_RecordsTakeTheirPlaces_notice :
    let e (n : Nat) : Ev := State.begin { ready with
      rep := { recs := List.replicate n (.notice (.pinned 0)), noticeLost := false } }
    (e 31).rep.recs.length + (e 31).posted.length + (e 31).cmd.owedCount < 32
      ∧ 32 ≤ (e 32).rep.recs.length + (e 32).posted.length + (e 32).cmd.owedCount := by decide

theorem witness_RecordsTakeTheirPlaces_completion :
    let e : Ev := (withTag (rec .read .active) Slot.empty).begin
    (e.cmd.tag 0).owed = true ∧ (e.cmd.tag 1).owed = false ∧ e.posted.Pairwise (fun x y => x.key ≤ y.key) :=
  ⟨by decide, by decide, List.Pairwise.nil⟩

theorem witness_DataAccessMovesAWord_read :
    (reading 254).bus.resetLow = false
      ∧ ((reading 254).ports.get .p0).bound = some { tag := 0, dir := .read, block := 0, word := 254 }
      ∧ (reading 254).deliverable { tag := 0, dir := .read, block := 0, word := 254 } = some 0 ∧ 254 + 1 < 256 := by decide
theorem witness_DataReadEndsABlock :
    (reading 255).bus.resetLow = false
      ∧ ((reading 255).ports.get .p0).bound = some { tag := 0, dir := .read, block := 0, word := 255 }
      ∧ (reading 255).deliverable { tag := 0, dir := .read, block := 0, word := 255 } = some 0
      ∧ 0 < (reading 255).cmd.tags.length ∧ ((reading 255).cmd.tag 0).st = .active
      ∧ ((reading 255).cmd.tag 0).count ≤ 0 + 1 := by decide
theorem witness_DataReadEndsABlock_more :
    let s := bindAt .read 255 (withTag { rec .read .active with count := 2, looked := 1, claims := [(0, 0)] }
      { slot5 .clean (List.replicate 256 7) with claims := 1 })
    (s.ports.get .p0).bound = some { tag := 0, dir := .read, block := 0, word := 255 }
      ∧ s.deliverable { tag := 0, dir := .read, block := 0, word := 255 } = some 0
      ∧ (s.cmd.tag 0).st = .active ∧ 0 + 1 < (s.cmd.tag 0).count := by decide
theorem witness_DataAccessMovesAWord_write :
    (writing 254).bus.resetLow = false
      ∧ ((writing 254).ports.get .p0).bound = some { tag := 0, dir := .write, block := 0, word := 254 }
      ∧ (writing 254).fillable { tag := 0, dir := .write, block := 0, word := 254 } = some 0 ∧ 254 + 1 < 256 := by decide
theorem witness_DataAccessMovesAWord_claims :
    FirstWith ((reading 0).cmd.tag 0).claims (fun c => c.1 == 0) (0, 0) ∧ ((reading 0).buf.slot 0).st = .clean
      ∧ (slot5 .loading []).st = .loading ∧ (∀ c ∈ ((reading 0).cmd.tag 0).claims, c.1 ≠ 1) :=
  ⟨⟨[], [], rfl, by decide, by simp⟩, by decide, by decide, by decide⟩
/-- A WRITE at word 0 of a FILLING slot, with n write-through blocks owed. -/
def owing (n : Nat) : State :=
  { writing 0 with buf := { ready.buf with
      slots := List.replicate n { slot5 .writing [] with owner := some (.tag 0) }
        ++ { slot5 .filling [] with owner := some (.tag 0) } :: List.replicate (63 - n) Slot.empty } }
theorem witness_DataAccessMovesAWord_owed :
    (owing 1).fillable { tag := 0, dir := .write, block := 0, word := 0 } = some 1 ∧ (owing 1).owedBlocks 0 = 1
      ∧ (owing 2).fillable { tag := 0, dir := .write, block := 0, word := 0 } = none ∧ (owing 2).owedBlocks 0 = 2
      ∧ (∀ x ∈ ready.buf.slots, ¬ (x.st = .filling ∧ x.owner = some (.tag 0))) := by decide
theorem witness_LastWordFillsTheBlock :
    (writing 255).bus.resetLow = false
      ∧ ((writing 255).ports.get .p0).bound = some { tag := 0, dir := .write, block := 0, word := 255 }
      ∧ (writing 255).fillable { tag := 0, dir := .write, block := 0, word := 255 } = some 0
      ∧ 0 < (writing 255).buf.slots.length ∧ ((writing 255).buf.slot 0).lba = some 5
      ∧ (writing 255).buf.lookup 5 = none ∧ (writing 255).bus.stageEn = false
      ∧ ((writing 255).cmd.tag 0).st = .active ∧ ((writing 255).cmd.tag 0).failure = none
      ∧ ((writing 255).cmd.tag 0).done < ((writing 255).cmd.tag 0).count ∧ 0 < (writing 255).cmd.tags.length
      ∧ ((writing 255).cmd.tag 0).count ≤ 0 + 1 := by decide
/-- The current slot of LBA 5 that the block replaces, in a given state. -/
def replacing (st : SlotState) : State :=
  let filling : Slot := { slot5 .filling (List.replicate 255 7) with owner := some (.tag 0) }
  { writing 255 with buf := { ready.buf with slots := filling :: slot5 st [] :: List.replicate 62 Slot.empty } }
theorem witness_LastWordFillsTheBlock_replaces :
    (∀ st ∈ [SlotState.dirty, .clean, .pinned, .writing, .loading], (replacing st).buf.lookup 5 = some 1
      ∧ (replacing st).fillable { tag := 0, dir := .write, block := 0, word := 255 } = some 0) := by decide
theorem witness_LastWordFillsTheBlock_more :
    let s := bindAt .write 255 (withTag { rec .write .active with count := 2 }
      { slot5 .filling (List.replicate 255 7) with owner := some (.tag 0) })
    s.fillable { tag := 0, dir := .write, block := 0, word := 255 } = some 0 ∧ 0 + 1 < (s.cmd.tag 0).count := by decide
theorem witness_LastWordFillsTheBlock_staged :
    let s : State := { writing 255 with bus := { ready.bus with stageEn := true } }
    s.fillable { tag := 0, dir := .write, block := 0, word := 255 } = some 0 ∧ s.buf.lookup 5 = none
      ∧ s.bus.stageEn = true ∧ (s.cmd.tag 0).through = false ∧ s.buf.pinnedCount < 8 := by decide
theorem witness_EmptyAccess_unbound : ready.bus.resetLow = false ∧ (ready.ports.get .p1).bound = none := ⟨rfl, rfl⟩
theorem witness_EmptyAccess_wait :
    let s := bindAt .read 0 (withTag (rec .read .active) Slot.empty)
    (s.ports.get .p0).bound = some { tag := 0, dir := .read, block := 0, word := 0 }
      ∧ s.deliverable { tag := 0, dir := .read, block := 0, word := 0 } = none := by decide

theorem witness_register_statements : ready.bus.resetLow = false := rfl
theorem witness_ConfigurationWritesAct :
    ready.bus.resetLow = false ∧ ready.store.run ≠ .quiesce
      ∧ ({ ready.gate with st := .hold } : Gate).st = .hold ∧ ready.gate.mode = .auto := by decide
theorem witness_ConfigurationWritesAct_latches :
    let s : State := { quiescing with gate := { ready.gate with st := .waitClear } }
    s.bus.resetLow = false ∧ s.gate.mode = .auto ∧ (0x0401 : Word).toNat / 2 ^ 0 % 2 ^ 1 = 1 ∧ s.gate.st = .waitClear
      ∧ s.store.run = .quiesce := by decide
theorem test_gate_config_reads_back : (after (.gateCfgWrite 0xFFFF) quiescing).regValue 27 = 0x0F1F := by decide +kernel
theorem witness_RegisterWrites_reads :
    ready.cmd.submit = .none ∧ (after .flush ready).cmd.submit = .accepted 0
      ∧ (after .read State.reset).cmd.submit = .refused .notReady
      ∧ (ready.ports.get .p1).bound = none
      ∧ ((reading 0).ports.get .p0).bound = some { tag := 0, dir := .read, block := 0, word := 0 }
      ∧ (reading 0).deliverable { tag := 0, dir := .read, block := 0, word := 0 } = some 0
      ∧ ((owing 2).ports.get .p0).bound = some { tag := 0, dir := .write, block := 0, word := 0 }
      ∧ 42 ≤ (42 : BitVec 6).toNat := by decide
theorem test_port_stat :
    (reading 0).regValue 15 = 0x0082 ∧ (reading 255).regValue 15 = 0xFF02 ∧ (writing 3).regValue 15 = 0x0306
      ∧ (owing 1).regValue 15 = 0x0086 ∧ (owing 2).regValue 15 = 0x0005 ∧ ready.regValue 17 = 0 := by decide
theorem test_status_and_counts :
    ({ quiescing with
      gate := { ready.gate with st := .latched, refused := true }
      buf := { ready.buf with slots := List.replicate 8 (slot5 .pinned []) ++ List.replicate 56 (slot5 .dirty []) }
      } : State).regValue 1 = 0x111D
    ∧ ({ ready with buf := { ready.buf with
      slots := List.replicate 8 (slot5 .pinned []) ++ List.replicate 56 (slot5 .dirty []) } } : State).regValue 22 = 0x0838
    ∧ quiescing.regValue 0 = 0x0020 := by decide
theorem test_view_entries :
    let s : State := { ready with
      trans := { ready.trans with
        remap := [{ lba := 0x12345, spare := 6, origin := .correctedRead }]
        suspects := [{ lba := 5, cause := .reread }], spares := [.free, .retired] }
      rpr := { ready.rpr with queue :=
        [{ entry5 with relTag := some 3 }, { kind := .remapWrite, lba := 9, origin := .writeFault, slot := some 63
                                             relTag := none, wtTag := some 7 }] } }
    s.viewEntry 0 0 = { d0 := 0x0101, d1 := 6, d2 := 0x2345, d3 := 1 }
      ∧ s.viewEntry 1 0 = { d0 := 0x0301, d1 := 0, d2 := 5, d3 := 0 }
      ∧ s.viewEntry 2 1 = { d0 := 0x0301, d1 := 0, d2 := 0, d3 := 0 }
      ∧ s.viewEntry 3 0 = { d0 := 0x0C01, d1 := 0x0300, d2 := 5, d3 := 0 }
      ∧ s.viewEntry 3 1 = { d0 := 0x1101, d1 := 0x703F, d2 := 9, d3 := 0 }
      ∧ s.viewEntry 0 1 = TableView.blank ∧ s.viewEntry 1 1 = TableView.blank ∧ s.viewEntry 2 2 = TableView.blank
      ∧ s.viewEntry 3 2 = TableView.blank := by decide
theorem witness_RegisterWrites_patrol : ready.patrol.st = .off ∧ ({ ready.patrol with st := .interval } : Patrol).st ≠ .off := by
  decide
theorem witness_RegisterWrites_readOnly :
    (7 : BitVec 6) = 7 ∧ 9 ≤ (9 : BitVec 6).toNat ∧ (12 : BitVec 6).toNat ≤ 12 ∧ (24 : BitVec 6).toNat ≤ 24
      ∧ 38 ≤ (38 : BitVec 6).toNat ∧ 38 ≤ (63 : BitVec 6).toNat := by decide

theorem witness_ControlWriteTakesFiveSteps :
    controlRow (.registerWrite 0 0x0D) = some 0x0D ∧ controlRow (.discard 0x40) = some 0x40
      ∧ ready.bus.resetLow = false ∧ quiescing.store.run = .quiesce := by decide
theorem witness_ReopenActsOnALatchedGate :
    ready.bus.resetLow = false ∧ ready.store.run ≠ .quiesce ∧ (0x80 : Word).getLsbD 7 = true
      ∧ (0x80 : Word).getLsbD 5 = false ∧ ({ ready.gate with st := .latched } : Gate).st = .latched := by decide
theorem witness_PatrolEnableAndDisable_enable :
    (2 : Word).getLsbD 1 = true ∧ (2 : Word).getLsbD 5 = false ∧ (2 : Word).getLsbD 7 = false ∧ ready.store.run = .ready
      ∧ ready.store.prep = none ∧ ready.patrol.st = .off ∧ ready.patrol.first ≤ ready.patrol.last
      ∧ ready.patrol.last < ready.trans.blocks ∧ ready.held ready.patrol.first = false := by decide
theorem witness_PatrolEnableAndDisable_badWindow :
    let p : Patrol := { ready.patrol with endL := 10000 }
    let q : Patrol := { ready.patrol with startL := 1 }
    ready.trans.blocks ≤ p.last ∧ q.last < q.first := by decide
theorem witness_PatrolEnableAndDisable_disable :
    let run : State := { ready with patrol := { ready.patrol with st := .running } }
    let wait : State := { ready with patrol := { ready.patrol with st := .interval, timer := some 10 } }
    (0 : Word).getLsbD 1 = false ∧ (0 : Word).getLsbD 5 = false ∧ (0 : Word).getLsbD 7 = false ∧ run.store.run ≠ .quiesce
      ∧ run.patrol.st = .running ∧ run.patrol.finishing = false ∧ wait.patrol.st ≠ .off ∧ wait.patrol.st ≠ .running
      ∧ wait.patrol.finishing = false := by decide
theorem witness_PatrolEnableAndDisable_restart :
    let fin : State := { ready with patrol := { ready.patrol with st := .running, finishing := true } }
    let again : State := { ready with patrol := { ready.patrol with st := .running, finishing := true, restart := true } }
    fin.patrol.enabled = false ∧ fin.patrol.first ≤ fin.patrol.last ∧ fin.patrol.last < fin.trans.blocks
      ∧ fin.patrol.st = .running ∧ again.patrol.enabled = true ∧ again.patrol.st = .running ∧ fin.store.run = .ready
      ∧ fin.store.prep = none := by decide
theorem witness_PatrolEnableAndDisable_ignored :
    quiescing.patrol.enabled = false ∧ quiescing.store.run ≠ .ready ∧ (2 : Word).getLsbD 6 = false
      ∧ (2 : Word).getLsbD 1 = true ∧ (0 : Word).getLsbD 1 = false
      ∧ ({ ready.store with prep := some { copy := .a, block := 0, aValid := false } } : Store).prep ≠ none := by decide
theorem test_restart_is_recorded :
    (after (.patrolEnable 2) (onLink .verify (some patrolJob0)
      { ready with patrol := { ready.patrol with st := .running, finishing := true } })).patrol.restart = true := by decide
theorem witness_SoftResetEntersQuiesce :
    (0x20 : Word).getLsbD 5 = true ∧ (0x20 : Word).getLsbD 6 = false ∧ (0x20 : Word).getLsbD 7 = false
      ∧ (0x20 : Word).getLsbD 1 = ready.patrol.enabled ∧ ready.store.run = .ready ∧ ready.gate.st ≠ .latched
      ∧ ready.rpr.active = none := by decide

/-- READY with an active repair of LBA 5, a job in the HOST list, and the gate in a state. -/
def repairActiveAt (a : ActiveRepair) (j : Job) (g : GateState) : State :=
  let s := withTag (rec .write .active) { slot5 .writing [] with owner := some (.tag 0) }
  { s with
    rpr := { s.rpr with queue := [entry5], active := some a }
    media := { s.media with hostQ := [j] }
    gate := { s.gate with st := g } }

/-- A write-through job of LBA 5 in slot 0 for tag 0. -/
def throughJob : Job := newJob .host (.tag 0) .write (.lba 5) (some (.slot 0))

/-- A repair in WAIT_WRITE. -/
def inWaitWrite : ActiveRepair := { step := .waitWrite, spare := none, place := none, covered := false }

/-- A repair that writes spare 0. -/
def inSpareWrite : ActiveRepair := { step := .spareWrite, spare := some 0, place := some .repairBuf, covered := false }

theorem witness_SoftResetEntersQuiesce_repair :
    let s := repairActiveAt inWaitWrite throughJob .hold
    let gone (s : State) : State := { s with media := { s.media with hostQ := [] } }
    (0x20 : Word).getLsbD 1 = s.patrol.enabled ∧ s.store.run = .ready ∧ s.rpr.active = some inWaitWrite
      ∧ s.writeJobOf 5 = true ∧ (gone s).writeJobOf 5 = false ∧ throughJob.dropped = true
      ∧ (repairActiveAt inSpareWrite throughJob .hold).rpr.active.map (·.step) ≠ some .waitWrite
      ∧ (repairActiveAt inWaitWrite throughJob .latched).gate.st = .latched := by decide
theorem test_soft_reset_wakes_the_waiting_repair :
    ((after (.softReset 0x20) (repairActiveAt inWaitWrite throughJob .hold)).rpr.active.map (·.step)) = some .spareWrite := by
  decide +kernel
theorem test_soft_reset_keeps_the_active_repair :
    let t := after (.softReset 0x20) (repairActiveAt inSpareWrite throughJob .hold)
    t.rpr.active = some inSpareWrite ∧ t.rpr.queue = [entry5] ∧ (t.buf.slot 0).st = .dirty := by decide +kernel
theorem test_soft_reset_under_a_latched_gate_fails_the_load :
    let t := after (.softReset 0x20) (repairActiveAt inSpareWrite loadJob .latched)
    t.media.hostQ = [] ∧ t.buf.slot 0 = Slot.empty := by decide +kernel
theorem witness_SoftResetEntersQuiesce_discard :
    (0x60 : Word).getLsbD 5 = true ∧ (0x60 : Word).getLsbD 6 = true ∧ (0x60 : Word).getLsbD 7 = false
      ∧ (0x60 : Word).getLsbD 1 = ready.patrol.enabled ∧ ready.store.commit = none := by decide
theorem test_discard_of_a_drained_buffer_frees_the_pinned :
    let s : State := { quiescing with
      buf := { ready.buf with slots := slot5 .pinned [] :: List.replicate 63 Slot.empty }
      store := { quiescing.store with copyA := .inWrite, commit := some { target := .a, gen := 3, block := 0 } } }
    (after (.discard 0x40) s).buf.lost = 1 ∧ ((after (.discard 0x40) s).buf.slot 0).st = .free := by decide +kernel
theorem witness_DiscardFreesTheBuffer :
    (0x40 : Word).getLsbD 6 = true ∧ (0x40 : Word).getLsbD 7 = false ∧ (0x40 : Word).getLsbD 5 = false
      ∧ (0x40 : Word).getLsbD 1 = ready.patrol.enabled ∧ ready.store.run ≠ .quiesce ∧ quiescing.store.run = .quiesce
      ∧ quiescing.store.discarded = false ∧ quiescing.store.commit = none
      ∧ (0x40 : Word).getLsbD 1 = quiescing.patrol.enabled := by decide

theorem witness_AnswersThatEndNoJob_stray : ready.media.link = none ∧ fits .goodWrite .identify = false := by decide
theorem witness_AnswersThatEndNoJob_seq :
    ∃ o, State.reset.media.link = some o ∧ o.seq ≠ 1 := ⟨_, rfl, by decide⟩
theorem witness_IdentifyAnswer :
    State.reset.bus.resetLow = false
      ∧ State.reset.media.link = some { seq := 0, op := .identify, job := none, orphan := none }
      ∧ State.reset.gate.filter ≠ .asserted ∧ State.reset.gate.st = .opened ∧ State.reset.gate.mode = .auto
      ∧ 1 < State.reset.gate.tripLimit ∧ ({ State.reset.gate with filter := .asserted } : Gate).filter = .asserted
      ∧ ({ State.reset.gate with mode := .latched } : Gate).mode = .latched
      ∧ ({ State.reset.gate with tripLimit := 1 } : Gate).tripLimit ≤ 1 := by decide
theorem witness_IdentifyAnswer_usable :
    (8192 ≤ 8192 ∧ 268435456 ≤ 268435456 ∧ 512 = 512)
      ∧ ¬ (8192 ≤ 8191 ∧ 8191 ≤ 268435456 ∧ 512 = 512) ∧ ¬ (8192 ≤ 8192 ∧ 8192 ≤ 268435456 ∧ 511 = 512) := by decide
theorem witness_AnswersThatEndNoJob_retry :
    let s := onLink .read (some { loadJob with attempts := 2 }) ready
    s.bus.resetLow = false ∧ s.media.linkJob = some { loadJob with attempts := 2 } ∧ 2 + 1 ≤ s.media.readRetries := by decide
theorem witness_LoadEnds_good :
    let s := onLink .read (some loadJob) (withTag { rec .read .active with looked := 1, claims := [(0, 0)] }
      { slot5 .loading [] with claims := 1, owner := some (.tag 0) })
    s.bus.resetLow = false ∧ s.media.link.map (·.job) = some (some loadJob) ∧ loadJob.kind = .read
      ∧ loadJob.owner = .tag 0 ∧ loadJob.place = some (.slot 0) ∧ loadJob.target = .lba 5 ∧ loadJob.attempts = 0
      ∧ 4 < s.media.relocLevel ∧ (List.replicate 256 (0 : Word)).length = 256 ∧ 0 < s.buf.slots.length
      ∧ (s.buf.slot 0).st = .loading := by decide +kernel

/-- The op of job j on the link. -/
def awaiting (j : Job) (s : State) : State := onLink j.opOf (some j) s

theorem awaiting_awaits (j : Job) (s : State) (h : s.bus.resetLow = false) :
    (awaiting j s).Awaits { seq := 3, op := j.opOf, job := some j, orphan := none } j := ⟨h, rfl, rfl, rfl, rfl⟩

/-- 256 words. -/
def words : List Word := List.replicate 256 0

theorem witness_AnswersWell (j : Job) (h : j.attempts = 0) (s : State) :
    (j.opOf = .read → (awaiting j ready).AnswersWell j (.goodRead 4 (.words words)))
      ∧ (j.opOf = .verify → (awaiting j ready).AnswersWell j (.goodVerify 4))
      ∧ (j.opOf = .write → s.AnswersWell j .goodWrite) :=
  have pass : (awaiting j ready).LevelPasses j 4 := Or.inr (by rw [if_pos h]; exact (by decide : 4 < ready.media.relocLevel))
  ⟨fun o => ⟨o, by decide, by decide +kernel, pass⟩, fun o => ⟨o, by decide, pass⟩, fun o => o⟩
theorem witness_AnswersWeak (j : Job) (h : j.attempts = 0) :
    (j.opOf = .read → (awaiting j ready).AnswersWeak j (.goodRead 5 (.words words)))
      ∧ (j.opOf = .verify → (awaiting j ready).AnswersWeak j (.goodVerify 5)) := by
  have no : ¬ (awaiting j ready).LevelPasses j 5 := by
    unfold State.LevelPasses; rw [if_pos h]
    exact (by decide : ¬ (ready.media.relocLevel = 8 ∨ 5 < ready.media.relocLevel))
  exact ⟨fun o => ⟨o, by decide, by decide +kernel, no⟩, fun o => ⟨o, by decide, no⟩⟩
theorem witness_AnswersFailed (j : Job) (h : j.attempts = 3) :
    ((j.opOf = .read ∨ j.opOf = .verify) → (awaiting j ready).AnswersFailed j .unrecovered)
      ∧ (j.opOf = .write → (awaiting j ready).AnswersFailed j .writeFault) :=
  ⟨fun o => ⟨o, by rw [h]; exact (by decide : ready.media.readRetries < 3 + 1)⟩, fun o => o⟩

/-- The op on the link has lost its owner. -/
def orphaned (k : Orphan) (s : State) : State :=
  { s with media := { s.media with link := s.media.link.map (fun o => { o with orphan := some k }) } }

theorem witness_AnswersThatEndNoJob_orphan :
    let s := orphaned .applyNothing (awaiting loadJob ready)
    s.bus.resetLow = false ∧ s.media.link.map (·.job) = some (some loadJob)
      ∧ s.media.link.map (·.orphan) = some (some .applyNothing) ∧ fits .unrecovered .read = true := by decide
theorem witness_AnswersThatEndNoJob_late :
    let s := orphaned .patrolQuiesce (awaiting patrolJob0 ready)
    s.bus.resetLow = false ∧ s.media.link.map (·.orphan) = some (some .patrolQuiesce) ∧ patrolJob0.opOf = .verify
      ∧ patrolJob0.kind = .verify ∧ patrolJob0.target = .lba 0 ∧ patrolJob0.attempts + 1 ≤ s.media.readRetries := by decide

theorem witness_LoadEnds :
    loadJob.kind = .read ∧ loadJob.opOf = .read ∧ loadJob.owner = .tag 0 ∧ loadJob.place = some (.slot 0)
      ∧ loadJob.target = .lba 5 ∧ loadJob.attempts = 0 ∧ ({ loadJob with attempts := 3 } : Job).attempts = 3
      ∧ ((withTag (rec .read .active) (slot5 .loading [])).buf.slot 0).st = .loading := by decide
/-- Two READs that share the load of slot 0, the older at port P0 and with a claim on the CLEAN slot 1. -/
def sharing : State :=
  { ready with
    cmd := { ready.cmd with
      tags := { rec .read .active with count := 2, looked := 2, claims := [(0, 0), (1, 1)] }
        :: { rec .read .active with looked := 1, claims := [(0, 0)] } :: List.replicate 6 TagRec.empty
      order := [0, 1] }
    buf := { ready.buf with slots :=
      { slot5 .loading [] with claims := 2, owner := some (.tag 0) }
        :: { slot5 .clean words with lba := some 6, claims := 1 } :: List.replicate 62 Slot.empty }
    ports := { ready.ports with p0 := { bound := some { tag := 0, dir := .read, block := 0, word := 0 }, empty := false } } }
theorem witness_LoadEnds_failed :
    sharing.bus.resetLow = false ∧ sharing.cmd.order.Nodup ∧ (∀ t ∈ sharing.cmd.order, (sharing.cmd.tag t).owed = true)
      ∧ sharing.cmd.claimants 0 = [0, 1] ∧ (sharing.buf.slot 0).st = .loading ∧ 0 < sharing.buf.slots.length := by decide
theorem test_failed_load_releases_both :
    let t := after (.responseFrame { seq := 3, body := .unrecovered }) (awaiting { loadJob with attempts := 3 } sharing)
    t.rep.recs = [.notice (.suspectAdded 5 .host), .completion 0 .readFailed 0 5, .completion 1 .readFailed 0 5]
      ∧ t.ports.p0.bound = none ∧ (t.buf.slot 0).st = .free ∧ (t.buf.slot 1).claims = 0 ∧ t.buf.clean = [1] := by
  decide +kernel
theorem witness_LoadEnds_request :
    (∀ x ∈ List.replicate 6 entry5, x.lba ≠ 7) ∧ (List.replicate 6 entry5).length ≤ 6 ∧ 6 < (List.replicate 7 entry5).length := by
  decide
theorem witness_LoadEnds_suspects :
    let l (n : Nat) : List Suspect := List.replicate n { lba := 8, cause := .host }
    (∃ x ∈ l 1, x.lba = 8) ∧ (¬ ∃ x ∈ l 31, x.lba = 5) ∧ (l 31).length < 32 ∧ (¬ ∃ x ∈ l 32, x.lba = 5)
      ∧ 32 ≤ (l 32).length := by decide
theorem witness_WriteJobEnds :
    throughJob.kind = .write ∧ throughJob.phase = .write ∧ throughJob.opOf = .write ∧ throughJob.verifyDecision ≠ some true
      ∧ ({ throughJob with verifyDecision := some true } : Job).opOf = .write
      ∧ ({ throughJob with phase := .verify } : Job).opOf = .verify ∧ throughJob.attempts = 0 := by decide
theorem witness_WriteJobEnds_replaces : [entry5] = [] ++ entry5 :: [] ∧ entry5.lba = 5 ∧ 0 < ready.cmd.tags.length := by decide
theorem witness_VerifyCommand :
    let j := newJob .host (.tag 0) .verify (.lba 5) none
    let s := withTag (rec .verify .active) Slot.empty
    let d := withTag (rec .verify .active) (slot5 .dirty [])
    j.kind = .verify ∧ j.opOf = .verify ∧ (s.cmd.tag 0).op = some .verify ∧ (s.cmd.tag 0).st = .active ∧ (s.cmd.tag 0).done ≠ (s.cmd.tag 0).count
      ∧ (s.cmd.tag 0).looked < (s.cmd.tag 0).count ∧ s.owedVerifies 0 = 0 ∧ s.buf.lookup 5 = none
      ∧ d.buf.lookup 5 = some 0 ∧ (d.buf.slot 0).st = .dirty ∧ s.gate.st ≠ .latched
      ∧ ({ ready.gate with st := .latched } : Gate).st = .latched := by decide
theorem witness_PatrolBlockEnds :
    let p : Patrol := { ready.patrol with endL := 1, pos := 1, st := .running, burstLeft := 1, interval := 0 }
    patrolJob0.owner = .patrol ∧ p.finishing = false ∧ p.pos ≤ p.last ∧ p.last < p.pos + 1 ∧ p.burstLeft ≠ 0
      ∧ p.burstLeft - 1 = 0 ∧ ready.patrol.interval ≠ 0 ∧ ready.higherWork = false ∧ ready.held 0 = false
      ∧ ({ ready with media := { ready.media with hostQ := [loadJob] } } : State).higherWork = true
      ∧ ({ ready with rpr := { ready.rpr with queue := [entry5] } } : State).held 5 = true := by decide
theorem witness_PatrolBlockEnds_between (e : Ev) (h : e.patrol.pos ≤ e.patrol.last) (hb : e.patrol.burstLeft ≠ 0) :
    (e.higherWork = true → ∃ g, e.between = .rest g) ∧ (e.higherWork = false → e.between = .take e) := by
  unfold Ev.between
  rw [if_neg (Nat.not_lt.mpr h), if_neg hb]
  exact ⟨fun w => ⟨_, if_pos w⟩, fun w => if_neg (by rw [w]; decide)⟩
theorem witness_RepairTakesItsSteps :
    let j := newJob .repair .repair .write (.pba 10000) (some .repairBuf)
    let r := newJob .repair .repair .read (.lba 5) (some .repairBuf)
    let v := newJob .repair .repair .verify (.pba 10000) none
    j.owner = .repair ∧ j.phase = .write ∧ j.opOf = .write ∧ r.opOf = .read ∧ v.opOf = .verify
      ∧ ready.trans.spares[0]? = some .free ∧ (∀ k, k < 0 → ready.trans.spares[k]? ≠ some .free)
      ∧ (∀ y ∈ List.replicate 16 SpareState.retired, y ≠ .free) := by decide
theorem witness_RepairEnds :
    let x : RepairEntry := { entry5 with kind := .remapWrite, slot := some 0, wtTag := some 0 }
    let y : RepairEntry := { x with wtTag := none, wtFormer := some 0 }
    entry5.kind = .relocate ∧ entry5.wtTag = none ∧ x.kind = .remapWrite ∧ x.slot = some 0 ∧ x.wtTag = some 0
      ∧ y.kind = .remapWrite ∧ y.slot = some 0 ∧ y.wtTag = none ∧ (held5.buf.slot 0).superseded = false
      ∧ (({ held5.buf.slot 0 with superseded := true } : Slot)).superseded = true := by decide
theorem witness_RepairEnds_failure :
    let r : TagRec := { rec .write .active with failure := some (.writeFailed, 5) }
    0 < held5.cmd.tags.length ∧ (held5.cmd.tag 0).st = .active ∧ (held5.cmd.tag 0).failure = none
      ∧ ((withTag r Slot.empty).cmd.tag 0).failure = some (.writeFailed, 5)
      ∧ ((withTag (rec .write .aborting) Slot.empty).cmd.tag 0).st = .aborting
      ∧ (ready.cmd.tag 0).st ≠ .active ∧ (ready.cmd.tag 0).st ≠ .aborting := by decide
theorem witness_CommitAnswers :
    let j := newJob .table .store .write (.pba 10016) (some (.image 7))
    let c : Commit := { target := .a, gen := 3, block := 7 }
    j.owner = .store ∧ j.kind = .write ∧ j.phase = .write ∧ j.opOf = .write ∧ 7 ≤ c.block ∧ ready.store.load = none
      ∧ ({ c with block := 6 } : Commit).block < 7 := by decide
theorem witness_CommitAnswers_limit :
    let st : Store := { ready.store with dirty := true, copyB := .valid 0xFFFFFFFF, atRisk := true }
    st.dirty = true ∧ 0xFFFFFFFF ≤ st.newestGen ∧ st.atRisk = true ∧ st.commit = none := by decide
theorem witness_DiscardsTables :
    let st (c : Option Commit) (q : Option Prep) : Store := { quiescing.store with commit := c, prep := q }
    let c : Commit := { target := .a, gen := 3, block := 2 }
    let q (ok : Bool) : Prep := { copy := .b, block := 2, aValid := ok }
    (st none none).commit = none ∧ (st none none).prep = none ∧ (st (some c) none).commit = some c
      ∧ (st none (some (q true))).prep = some (q true) ∧ (q true).aValid = true ∧ (q false).aValid = false
      ∧ ready.trans.spareLow < ready.trans.spares.countP (· == .free)
      ∧ (List.replicate 16 SpareState.retired).countP (· == .free) ≤ ready.trans.spareLow := by decide
theorem test_discard_abandons_a_commit :
    let t := after (.discard 0x40) { quiescing with store := { quiescing.store with
      commit := some { target := .a, gen := 3, block := 2 }, copyA := .inWrite } }
    t.store.atRisk = true ∧ t.store.run = .ready ∧ t.store.commit.map (·.target) = some .a ∧ t.store.retryTimer = false := by
  decide +kernel
theorem witness_PrepareAnswers :
    let q : Prep := { copy := .a, block := 7, aValid := false }
    let s := withTag { rec .prepare .active with lba := 0 } Slot.empty
    7 ≤ q.block ∧ q.copy = .a ∧ ready.store.commit = none ∧ ready.store.run ≠ .quiesce ∧ quiescing.store.run = .quiesce
      ∧ (s.cmd.tag 0).op = some .prepare ∧ (s.cmd.tag 0).st = .active
      ∧ ∀ u, u ≠ 0 → ¬ ((s.cmd.tag u).op = some .prepare ∧ (s.cmd.tag u).st = .active) := by
  refine ⟨by decide, rfl, rfl, by decide, rfl, rfl, rfl, ?_⟩
  intro u hu h
  obtain ⟨k, rfl⟩ := Nat.exists_eq_succ_of_ne_zero hu
  have : (List.replicate 7 TagRec.empty).getD k TagRec.empty = TagRec.empty := by
    rw [List.getD_eq_getElem?_getD, List.getElem?_replicate]; split <;> rfl
  have e : ((withTag { rec .prepare .active with lba := 0 } Slot.empty).cmd.tag (k + 1)) = TagRec.empty := this
  rw [e] at h
  exact absurd h.1 (by decide)
theorem witness_LoadReadsAndDecides :
    let j := newJob .table .store .read (.pba 10016) (some (.image 0))
    let q : Load := { copy := .a, block := 0, candidate := none, mismatch := false }
    j.owner = .store ∧ j.opOf = .read ∧ j.attempts = 0 ∧ q.block < 7 ∧ q.copy = .a := by decide
theorem witness_LoadReadsAndDecides_image :
    readImage (imageBlocks (ready.trans.image 10032 1)) = some (ready.trans.image 10032 1) := by decide +kernel
theorem witness_LatchFailsHostJobs_faultLine :
    let s : State := { ready with gate := { ready.gate with tripLimit := 1, filterCfg := .off } }
    s.gate.line = false ∧ s.gate.filterCfg = .off ∧ LatchesNext s.gate ∧ s.gate.st = .opened
      ∧ s.store.run.armed = true := by unfold LatchesNext; decide
theorem witness_LatchFailsHostJobs_goesOn :
    let e : Ev := held5.begin
    e.posted = [] ∧ e.order0 = e.cmd.order ∧ e.cmd.order.Nodup ∧ (∀ t ∈ e.cmd.order, (e.cmd.tag t).owed = true)
      ∧ e.cmd.order.contains 0 = true ∧ (e.cmd.tag 0).op = some .write ∧ (e.cmd.tag 0).st = .active
      ∧ e.media.hostQ = [] ∧ e.media.link = none := by decide
theorem witness_LatchFailsHostJobs :
    let s := { awaiting throughJob (withTag (rec .write .active) { slot5 .writing [] with owner := some (.tag 0) }) with
      gate := { ready.gate with tripLimit := 1, filter := .measuring .us4 } }
    s.bus.resetLow = false ∧ s.gate.tripLimit ≤ s.gate.trips + 1 ∧ s.gate.st = .opened ∧ s.store.run.armed = true
      ∧ s.media.opTimer ≠ none ∧ s.gate.mode = .auto ∧ (0x401 : Word).getLsbD 0 = true ∧ s.cmd.order.Nodup
      ∧ (∀ t ∈ s.cmd.order, (s.cmd.tag t).owed = true) := by decide
theorem witness_TimeoutAndUnitFaultTrip :
    let s := onLink .verify (some patrolJob0) ready
    s.bus.resetLow = false ∧ s.media.opTimer ≠ none ∧ s.media.link.map (·.job) = some (some patrolJob0)
      ∧ s.gate.st = .opened ∧ s.store.run.armed = true ∧ ready.media.opTimer = none ∧ ¬ LatchesNext s.gate
      ∧ ({ ready.gate with st := .hold } : Gate).st ≠ .opened ∧ loadJob.owner ≠ .patrol
      ∧ ((orphaned .applyNothing s).media.link.map (·.orphan)) = some (some .applyNothing) := by
  unfold LatchesNext; decide
theorem witness_TimersExpire_identify : State.reset.bus.resetLow = false ∧ State.reset.store.run = .starting := by decide
theorem witness_FaultLineAndHold :
    ready.gate.line = false ∧ ready.gate.filterCfg ≠ .off ∧ ready.store.run ≠ .quiesce
      ∧ ({ ready.gate with filterCfg := .off } : Gate).filterCfg = .off ∧ ({ ready.gate with line := true } : Gate).line = true
      ∧ ({ ready.gate with filter := .measuring .us4 } : Gate).filter = .measuring .us4 ∧ ready.gate.filter = .idle := by
  decide
theorem witness_FaultLineAndHold_trips :
    let s : State := { ready with gate := { ready.gate with filterCfg := .off } }
    s.bus.resetLow = false ∧ s.gate.line = false ∧ s.gate.filterCfg = .off ∧ s.store.run.armed = true
      ∧ s.gate.st = .opened ∧ ¬ LatchesNext s.gate ∧ State.reset.store.run.armed = false := by
  unfold LatchesNext; decide
theorem witness_FaultLineAndHold_hold :
    let s : State := { ready with gate := { ready.gate with st := .hold, holdTimer := some .ms4 } }
    s.bus.resetLow = false ∧ s.store.run ≠ .quiesce ∧ s.gate.st = .hold ∧ s.gate.holdTimer ≠ none := by decide
theorem witness_TimersExpire :
    let p : Patrol := { ready.patrol with st := .interval, timer := some 10 }
    ({ ready.store with retryTimer := true } : Store).retryTimer = true ∧ p.st = .interval ∧ p.timer ≠ none
      ∧ ({ ready with patrol := p } : State).held p.pos = false ∧ ready.store.run = .ready
      ∧ ({ ready with patrol := { p with st := .suspended } } : State).higherWork = false
      ∧ p.pos ≤ p.last ∧ ({ p with pos := p.last + 1 } : Patrol).last < ({ p with pos := p.last + 1 } : Patrol).pos := by
  decide

theorem witness_TimersExpire_held :
    let s (st : PatrolState) : State := { ready with
      patrol := { ready.patrol with st := st, timer := some 10, pos := 5, startL := 4, endL := 5 }
      rpr := { ready.rpr with queue := [entry5] } }
    (s .interval).held 5 = true ∧ (s .interval).patrol.pos ≤ (s .interval).patrol.last ∧ (s .interval).patrol.timer ≠ none
      ∧ (s .suspended).patrol.st = .suspended ∧ (s .suspended).store.run = .ready ∧ (s .suspended).higherWork = false := by
  decide
theorem test_expiry_at_a_held_block_skips_it :
    let s : State := { ready with
      patrol := { ready.patrol with st := .interval, timer := some 10, pos := 5, startL := 4, endL := 5 }
      rpr := { ready.rpr with
        queue := [entry5], active := some { step := .commitWait, spare := none, place := none, covered := false } } }
    (after .patrolIntervalExpiry s).rep.recs = [.notice (.patrolPassDone 5)]
      ∧ (after .patrolIntervalExpiry s).patrol.st = .off ∧ (after .patrolIntervalExpiry s).patrol.pos = 6 := by decide
theorem witness_Arbiter_first (j : Job) (h : ({ ready with media := { ready.media with hostQ := [loadJob] } } : State).eligible j = true)
    (hj : j = loadJob) : FirstWith [loadJob] ({ ready with media := { ready.media with hostQ := [loadJob] } } : State).eligible j :=
  ⟨[], [], by rw [hj]; rfl, h, by simp⟩
theorem witness_Arbiter_eligible :
    ({ ready with media := { ready.media with hostQ := [loadJob] } } : State).eligible loadJob = true
      ∧ (∀ x ∈ ready.media.tableQ, ready.eligible x = false) := by decide
theorem witness_Arbiter_place :
    let s (n : Nat) : State := { ready with rpr := { ready.rpr with queue := List.replicate n entry5 } }
    (s 7).eligible throughJob = true ∧ (s 8).eligible throughJob = false ∧ (s 8).eligible loadJob = true := by decide
theorem witness_OpIssue_translation :
    let e : RemapEntry := { lba := 5, spare := 3, origin := .software }
    loadJob.target = .lba 5 ∧ (∀ x ∈ ready.trans.remap, x.lba ≠ 5) ∧ [e].find? (·.lba == 5) = some e
      ∧ throughJob.verifyDecision = none ∧ throughJob.cls = .host := by decide
theorem witness_OpIssue :
    let s : State := { ready with media := { ready.media with hostQ := [loadJob] } }
    s.bus.resetLow = false ∧ s.media.link = none ∧ s.gate.st = .opened ∧ s.choice = some loadJob := by decide
theorem witness_CommitStart :
    let s : State := { ready with store := { ready.store with dirty := true, copyB := .valid 0xFFFFFFFE } }
    s.store.dirty = true ∧ s.store.commit = none ∧ s.store.prep = none ∧ s.store.run = .ready
      ∧ s.store.retryTimer = false ∧ s.store.newestGen < 0xFFFFFFFF := by decide
theorem witness_CommitStart_target :
    let st (a b : CopyStatus) : Store := { ready.store with copyA := a, copyB := b }
    (st (.valid 1) (.valid 2)).copyA = .valid 1 ∧ 1 < 2 ∧ (st (.valid 2) (.valid 2)).copyB = .valid 2 ∧ 2 ≤ 2
      ∧ (∀ g, (st (.valid 1) .invalid).copyB ≠ .valid g) ∧ (∀ g, (st .invalid (.valid 1)).copyA ≠ .valid g) :=
  ⟨rfl, by decide, rfl, by decide, (fun _ h => nomatch h), (fun _ h => nomatch h)⟩
theorem witness_QuiesceEnd :
    quiescing.bus.resetLow = false ∧ quiescing.store.run = .quiesce ∧ quiescing.store.ret = some .ready
      ∧ (∀ x ∈ quiescing.buf.slots, x.st ≠ .dirty ∧ x.st ≠ .writing ∧ x.st ≠ .loading) ∧ quiescing.rpr.queue = []
      ∧ quiescing.store.commit = none ∧ quiescing.store.prep = none ∧ quiescing.store.dirty = false := by decide

/-- A READ with an allocator request. -/
def requesting (k : AllocKind) (x : Slot) : State :=
  let s := bindAt (match k with | .load => .read | .fill => .write) 0 (withTag (rec .read .active) x)
  { s with buf := { s.buf with allocQ := [{ tag := 0, kind := k, lba := 5, block := 0 }] } }

theorem witness_Allocation_free :
    let s := requesting .load (slot5 .dirty [])
    s.buf.lookup 5 = some 0 ∧ 1 < s.buf.slots.length ∧ (s.buf.slot 1).st = .free
      ∧ (∀ k, k < 1 → (s.buf.slot k).st ≠ .free) := by decide
theorem witness_Allocation_load :
    let s := requesting .load Slot.empty
    s.buf.allocQ = { tag := 0, kind := .load, lba := 5, block := 0 } :: [] ∧ s.buf.lookup 5 = none ∧ s.gate.st ≠ .latched
      ∧ (s.buf.slot 0).st = .free := by decide
theorem witness_Allocation_latched :
    let s : State := { requesting .load Slot.empty with gate := { ready.gate with st := .latched } }
    s.buf.lookup 5 = none ∧ s.gate.st = .latched ∧ (s.buf.slot 0).st = .free := by decide
theorem witness_Allocation_clean :
    let b : Buf := { ready.buf with slots := List.replicate 64 { slot5 .clean [] with lba := some 6 }, clean := [63] }
    (∀ x ∈ b.slots, x.st ≠ .free) ∧ b.clean.head? = some 63 := by decide
theorem witness_Binding :
    let s : State := { withTag (rec .write .queued) Slot.empty with ports := { ready.ports with wait := [0] } }
    s.bus.resetLow = false ∧ FirstWith s.ports.wait (fun u => (s.ports.takes (s.cmd.tag u).portSel).isSome) 0
      ∧ s.ports.takes (s.cmd.tag 0).portSel = some .p0 ∧ (s.cmd.tag 0).st = .queued :=
  ⟨rfl, ⟨[], [], rfl, by decide, by decide⟩, by decide, by decide⟩
theorem witness_Lookup :
    let s := bindAt .read 0 (withTag { rec .read .active with count := 4 } (slot5 .dirty []))
    s.lookupDue s.ports.p0 = some 0 ∧ s.lookupDue s.ports.p1 = none ∧ ready.lookupDue ready.ports.p0 = none
      ∧ (let q : State := { s with ports := { ready.ports with p1 := s.ports.p0 } }
         q.lookupDue q.ports.p0 = none ∧ q.lookupDue q.ports.p1 = some 0)
      ∧ s.buf.lookup 5 = some 0 ∧ s.buf.lookup 6 = none := by decide
theorem witness_Takes :
    let p : Ports := (reading 0).ports
    ready.ports.takes .p0 = some .p0 ∧ p.takes .p0 = none ∧ p.takes .any = some .p1 ∧ ready.ports.takes .any = some .p0 := by
  decide
theorem witness_WriteJobsAreCreated_ready :
    let s := withTag TagRec.empty (slot5 .dirty [])
    let x := withTag (rec .write .active) { slot5 .writing [] with owner := some (.tag 0) }
    s.offerable 0 = true ∧ ({ s with rpr := { s.rpr with queue := [entry5] } } : State).offerable 0 = false
      ∧ x.wtReady 0 = true ∧ ({ x with media := { x.media with hostQ := [throughJob] } } : State).wtReady 0 = false := by
  decide
theorem witness_WriteJobsAreCreated_destage :
    let s := withTag TagRec.empty (slot5 .dirty [])
    s.bus.resetLow = false ∧ s.media.destageQ = [] ∧ s.media.linkJob = none ∧ s.rpr.queue.length < 8
      ∧ FirstWith [0] s.offerable 0 ∧ (s.buf.slot 0).lba = some 5 :=
  ⟨rfl, rfl, rfl, by decide, ⟨[], [], rfl, by decide, by decide⟩, rfl⟩
theorem witness_WriteJobsAreCreated_through :
    let s := withTag (rec .write .active) { slot5 .writing [] with owner := some (.tag 0) }
    s.bus.resetLow = false ∧ 0 < s.buf.slots.length ∧ s.wtReady 0 = true ∧ (∀ k, k < 0 → s.wtReady k = false)
      ∧ (s.buf.slot 0).owner = some (.tag 0) ∧ (s.buf.slot 0).lba = some 5 ∧ s.gate.st ≠ .latched := by decide
theorem witness_WriteJobsAreCreated_latched :
    let s : State := { withTag (rec .write .aborting) { slot5 .writing [] with owner := some (.tag 0) } with
      gate := { ready.gate with st := .latched } }
    s.wtReady 0 = true ∧ s.gate.st = .latched ∧ (s.cmd.tag 0).st = .aborting := by decide
theorem witness_CommandStart (o : Opcode) :
    let s := withTag (rec o .queued) (slot5 .pinned [])
    s.bus.resetLow = false ∧ FirstWith s.cmd.order s.startable 0 ∧ (s.cmd.tag 0).op = some o
      ∧ s.buf.lookup (s.cmd.tag 0).lba = some 0 ∧ (s.buf.slot 0).st = .pinned
      ∧ s.trans.suspect (s.cmd.tag 0).lba = false :=
  ⟨rfl, ⟨[], [], rfl, by cases o <;> decide, by simp⟩, rfl, by cases o <;> decide, rfl, by cases o <;> decide⟩
/-- A READ of LBA 5 behind a command of opcode o for the same LBA. -/
def behind (o : Opcode) : State :=
  { ready with cmd := { ready.cmd with
      tags := rec o .active :: rec .read .queued :: List.replicate 6 TagRec.empty, order := [0, 1] } }
theorem witness_CommandStart_startable :
    (behind .verify).cmd.order = [0] ++ 1 :: [] ∧ (1 : Tag) ∉ ([0] : List Tag) ∧ (behind .verify).startable 1 = true
      ∧ (behind .write).startable 1 = false ∧ (behind .releasePinned).startable 1 = false := by decide
theorem witness_CommandStart_suspect :
    let s := withTag (rec .clearSuspect .queued) (slot5 .dirty [])
    ({ s.trans with suspects := [{ lba := 5, cause := .host }] } : Trans).suspect (s.cmd.tag 0).lba = true
      ∧ (∀ i, s.buf.lookup 5 = some i → (s.buf.slot i).st ≠ .pinned) := by
  refine ⟨by decide, fun i h => ?_⟩
  have : some 0 = some i := h
  cases this
  decide
theorem witness_RepairQueue :
    let s : State := { ready with rpr := { ready.rpr with queue := [entry5] } }
    s.rpr.queue = entry5 :: [] ∧ s.rpr.active = none ∧ s.writeJobOf 5 = false ∧ entry5.kind = .relocate
      ∧ s.buf.lookup 5 = none := by decide
theorem witness_RepairQueue_waits :
    let s : State := { ready with
      rpr := { ready.rpr with queue := [entry5] }
      media := { ready.media with hostQ := [newJob .host (.tag 0) .write (.lba 5) (some (.slot 0))] } }
    s.rpr.queue = entry5 :: [] ∧ s.rpr.active = none ∧ s.writeJobOf 5 = true := by decide
theorem witness_RepairQueue_copies :
    let s := withTag TagRec.empty (slot5 .clean words)
    let x : RepairEntry := { entry5 with kind := .remapWrite, slot := some 0 }
    s.buf.lookup 5 = some 0 ∧ (s.buf.slot 0).st ≠ .loading ∧ x.slot = some 0 := by decide
theorem witness_AdmissionWait_full : 6 < (List.replicate 7 { entry5 with lba := 9 }).length
    ∧ (∀ x ∈ List.replicate 7 { entry5 with lba := 9 }, x.lba ≠ 5) := by decide
theorem witness_AdmissionWait :
    let s : State := { withTag (rec .relocate .active) Slot.empty with rpr := { ready.rpr with wait := [0] } }
    let six : State := { s with rpr := { s.rpr with queue := List.replicate 6 { entry5 with lba := 9 } } }
    let own : State := { s with rpr := { s.rpr with queue := [entry5] } }
    six.rpr.wait = [0] ∧ six.rpr.queue.length ≤ 6 ∧ (∀ x ∈ six.rpr.queue, x.lba ≠ (six.cmd.tag 0).lba)
      ∧ own.rpr.queue = [] ++ entry5 :: [] ∧ entry5.lba = (own.cmd.tag 0).lba ∧ entry5.relTag = none := by decide
theorem witness_FlushSet :
    let s : State := { withTag TagRec.empty (slot5 .dirty []) with
      buf := { (withTag TagRec.empty (slot5 .dirty [])).buf with flush := [{ tag := 0, slots := [0], pinned := false }] } }
    0 < s.buf.slots.length ∧ (s.buf.slot 0).st = .dirty ∧ (slot5 .pinned []).st ≠ .dirty ∧ (slot5 .pinned []).st ≠ .writing
      ∧ (slot5 .writing []).st = .writing ∧ (s.buf.slot 1).st ≠ .dirty ∧ (s.buf.slot 1).st ≠ .writing
      ∧ (s.buf.setSlot 0 (slot5 .pinned [])).flush = [{ tag := 0, slots := [], pinned := true }] := by decide
theorem witness_FlushComplete :
    let s : State := { withTag { rec .flush .active with lba := 0, count := 0 } Slot.empty with
      buf := { ready.buf with flush := [{ tag := 0, slots := [], pinned := true }] } }
    s.bus.resetLow = false ∧ FirstWith s.buf.flush (fun g => g.slots.isEmpty && s.cmd.isAt g.tag .flush .active)
      { tag := 0, slots := [], pinned := true } :=
  ⟨rfl, ⟨[], [], rfl, by decide, by decide⟩⟩

/-! ### Invariants: a state that is not State.reset, with a command in its queue -/

/-- READY with a DIRTY slot, a WRITE at port P0 with its FILL request, a repair, a closed gate and a pop in the queue. -/
def busy : State :=
  { withTag (rec .write .active) (slot5 .dirty []) with
    buf := { ready.buf with
      slots := slot5 .dirty [] :: List.replicate 63 Slot.empty, destage := [0]
      allocQ := [{ tag := 0, kind := .fill, lba := 5, block := 0 }] }
    ports := { ready.ports with p0 := { bound := some { tag := 0, dir := .write, block := 0, word := 0 }, empty := false } }
    rpr := { ready.rpr with queue := [entry5] }
    gate := { ready.gate with st := .latched, tripLimit := 15 }
    pending := [.reportPop 0] }

theorem witness_invariants_step : ∃ t, step busy = .next t := ⟨_, rfl⟩
theorem witness_ConfigLegal : busy.ConfigLegal :=
  ⟨by decide, by decide, by decide, by decide, by decide, by decide, by decide, by decide⟩
theorem busy_slot_free (i : Nat) : busy.buf.slot (i + 1) = Slot.empty := by
  show (List.replicate 63 Slot.empty).getD i Slot.empty = Slot.empty
  rw [List.getD_eq_getElem?_getD, List.getElem?_replicate]
  split <;> rfl
theorem busy_tag_free (t : Nat) : busy.cmd.tag (t + 1) = TagRec.empty := by
  show (List.replicate 7 TagRec.empty).getD t TagRec.empty = TagRec.empty
  rw [List.getD_eq_getElem?_getD, List.getElem?_replicate]
  split <;> rfl
theorem witness_ListsExact : busy.buf.ListsExact where
  size := by decide
  destageOnce := by decide
  destageExact i := by
    cases i with
    | zero => decide
    | succ i => rw [busy_slot_free]; simp [busy, Slot.empty]
  cleanOnce := by decide
  cleanExact i := by
    cases i with
    | zero => decide
    | succ i => rw [busy_slot_free]; simp [busy, ready, State.reset, State.inReset, Slot.empty]
theorem witness_ReportRoom : busy.ReportRoom := by unfold State.ReportRoom; decide
theorem witness_TagsExact : busy.TagsExact where
  orderOnce := by decide
  orderExact t := by
    cases t with
    | zero => decide
    | succ t => rw [busy_tag_free]; simp [busy, withTag, TagRec.owed, TagRec.empty]
  completionOnce := by decide
  completionExact t := by
    cases t with
    | zero => decide
    | succ t => rw [busy_tag_free]; simp [busy, withTag, ready, State.reset, State.inReset, completionTags, TagRec.empty]
theorem witness_ClosedIdle : busy.ClosedIdle := ⟨by decide, by decide, by decide, by decide⟩
theorem witness_RepairsDistinct : busy.RepairsDistinct := by unfold State.RepairsDistinct; decide

/-- busy with a remap entry, a suspect, a spare reserved for the active repair, and patrol on a window. -/
def repairing : State :=
  { busy with
    trans := { ready.trans with
      spares := .mapped :: .reserved :: List.replicate 14 .free
      remap := [{ lba := 7, spare := 0, origin := .software }], suspects := [{ lba := 8, cause := .host }] }
    rpr := { busy.rpr with active := some { step := .spareWrite, spare := some 1, place := some .repairBuf, covered := false } }
    patrol := { ready.patrol with endL := 9999, st := .suspended }
    media := { ready.media with repairQ := [newJob .repair .repair .write (.pba 10001) (some .repairBuf)] } }

theorem witness_TablesExact : repairing.TablesExact where
  size := by decide
  conserved := by decide
  reservedOne := by decide
  ascending := by decide
  spareOnce := by decide
  mappedExact i := by
    by_cases h : i < 16
    · exact (by decide : ∀ k, k < 16 → (repairing.trans.spares[k]? = some .mapped ↔
        (k < repairing.trans.spareCount ∧ ∃ x ∈ repairing.trans.remap, x.spare = k))) i h
    · have : repairing.trans.spares[i]? = none := List.getElem?_eq_none (Nat.le_of_not_lt h)
      rw [this]
      exact ⟨fun x => (by cases x), fun x => absurd x.1 h⟩
  suspectRoom := by decide
  suspectOnce := by decide
theorem witness_JobsPlaced : repairing.media.JobsPlaced :=
  ⟨by decide, fun j h => (by cases h), by decide, by decide, by decide, fun j h => (by cases h),
    fun j h => by rw [List.mem_singleton.mp h]; exact ⟨rfl, _, rfl⟩, fun o j h => (by cases h)⟩
/-- A job of each class as its creation makes it, and jobs that none makes. -/
theorem test_shaped :
    loadJob.Shaped ∧ throughJob.Shaped ∧ patrolJob0.Shaped ∧ (newJob .destage .staging .write (.lba 5) (some (.slot 0))).Shaped
      ∧ ¬ (newJob .destage .staging .read (.lba 5) (some (.slot 0))).Shaped
      ∧ ¬ (newJob .host (.tag 0) .write (.pba 5) (some (.slot 0))).Shaped :=
  ⟨⟨Or.inr ⟨_, rfl⟩, ⟨_, rfl⟩, _, rfl⟩, ⟨⟨_, rfl⟩, ⟨_, rfl⟩, _, rfl⟩, ⟨rfl, ⟨_, rfl⟩, rfl⟩, ⟨rfl, ⟨_, rfl⟩, _, rfl⟩,
    fun h => h, fun h => (by obtain ⟨_, ⟨_, h⟩, _⟩ := h; cases h)⟩
theorem witness_TablesGuarded : repairing.TablesGuarded where
  placed := witness_JobsPlaced
  spareApart := by
    intro a r h1 h2
    cases h1; cases h2
    decide
  reservedHeld := by
    intro i h
    by_cases k : i < 16
    · have := (by decide : ∀ k, k < 16 → repairing.trans.spares[k]? = some .reserved → k = 1) i k h
      exact ⟨_, rfl, by rw [this]⟩
    · rw [show repairing.trans.spares[i]? = none from List.getElem?_eq_none (Nat.le_of_not_lt k)] at h
      cases h
  spareNone := by intro a h k; cases h; rcases k with k | k | k <;> cases k
  repairJob := Or.inr ⟨_, _, rfl, rfl, by decide, by decide⟩
  candidate := by intro l img h; cases h
  loading := by decide
  returns := by intro r h; cases h
  identify := by intro o h; cases h
  held := by decide
  early := by intro h; exact absurd h (by decide)
theorem repairing_tag_free (t : Nat) : repairing.cmd.tag (t + 1) = TagRec.empty := busy_tag_free t

theorem witness_InRange : repairing.InRange where
  ranged :=
    { remap := by decide
      suspects := by decide
      entries := by decide
      admission := by decide
      spare := by intro a r h k; cases h; cases k; decide
      slots := by
        intro x hx hf n h
        rcases List.mem_cons.mp hx with rfl | hx
        · cases h; decide
        · rw [List.eq_of_mem_replicate hx] at h; cases h
      requests := by decide
      jobs := by intro j h; cases h
      late := by intro o j h; cases h
      commands := by
        intro t _ _
        cases t with
        | zero => decide
        | succ t => rw [repairing_tag_free]; decide
      window := by decide }
  bound := by intro p b h; cases p <;> cases h; decide
  waiting := by decide
  patrolOne := by decide
  patrolWaits := fun h => absurd rfl h
  patrolRuns := by intro j h; cases h
  patrolFinishes := by intro h; cases h
  patrolLate := by intro o j h; cases h
  unloaded := by decide
  preparing := by intro h; exact absurd rfl h
theorem witness_WorkServes : repairing.WorkServes where
  bound := by intro p b h; cases p <;> cases h; decide
  reads := by intro p b h; cases p <;> cases h; decide
  writes := by intro p b h; cases p <;> cases h; decide
  boundOnce := by intro b c h k; cases k
  waiting := by decide
  fills := by
    intro q hq _
    rw [List.mem_singleton.mp hq]
    exact ⟨.p0, _, rfl, rfl, rfl⟩
  loads := by
    intro q hq h
    rw [List.mem_singleton.mp hq] at h
    cases h
  requestOnce := by decide
  filling := by
    intro x hx h
    rcases List.mem_cons.mp hx with rfl | hx
    · cases h
    · rw [List.eq_of_mem_replicate hx] at h; cases h
  fillingOnce := by decide
  through := by
    intro t h
    exact absurd (show repairing.owedBlocks t = 0 from rfl) h
  verifies := by
    intro t h
    exact absurd (show repairing.owedVerifies t = 0 from rfl) h
  claims := by
    intro t h
    cases t with
    | zero => exact absurd rfl h
    | succ t => rw [repairing_tag_free] at h; exact absurd rfl h
  relocates := by decide
  relocateOnce := by decide
  formerAlone := by decide
  throughKind := by decide
  noWriteJob := by decide
  active := by decide
  queued := by
    intro t h
    cases t with
    | zero => exact absurd h (by decide)
    | succ t => rw [repairing_tag_free] at h; exact absurd h (by decide)
  prepare := by
    intro t h
    cases t with
    | zero => exact absurd h (by decide)
    | succ t => rw [repairing_tag_free] at h; exact absurd h (by decide)
theorem witness_StepKeepsInRange_tags : repairing.TagsExact := ⟨by decide, fun t => witness_TagsExact.orderExact t,
  by decide, fun t => witness_TagsExact.completionExact t⟩
theorem witness_StepKeepsInRange_rest : repairing.ClosedIdle ∧ repairing.RepairsDistinct ∧ ∃ t, step repairing = .next t :=
  ⟨⟨by decide, by decide, by decide, by decide⟩, by unfold State.RepairsDistinct; decide, _, rfl⟩
/-- READY, a PREPARE submitted to a unit prepared before: L changes in the step. -/
theorem test_prepare_changes_L :
    (after .prepare { ready with cmd := { ready.cmd with count := 32 } }).trans.blocks = 9984 := by decide +kernel
theorem witness_WriteJobsSingle : repairing.WriteJobsSingle where
  placed := witness_JobsPlaced
  fixed := by
    intro j hj n
    have : j = newJob .repair .repair .write (.pba 10001) (some .repairBuf) := by simpa [repairing, busy, withTag, ready, State.reset, State.inReset] using hj
    rw [this]
    exact Or.inl (by simp [newJob])
  linkFixed := by intro j n h; cases h
  once := by decide
  destageOnce := by decide
  room := by decide
  linkRoom := by intro j h; cases h
theorem witness_SlotsExact : repairing.SlotsExact where
  lists := witness_ListsExact
  placed := witness_JobsPlaced
  currentOnce i k n h1 h2 _ _ := by
    cases i with
    | succ i => rw [show repairing.buf = busy.buf from rfl, busy_slot_free] at h1; cases h1
    | zero =>
      cases k with
      | zero => rfl
      | succ k => rw [show repairing.buf = busy.buf from rfl, busy_slot_free] at h2; cases h2
  apart := by decide
  loads := by intro j h; cases h
  verifies := by intro j h; cases h
  writes := by intro j h; cases h
  repairs := by decide
  latched := by decide

end Sys2Proof.Tests
end

/-! Submissions and reports: what a write of COMMAND answers (R56, R57), what a pop takes off and what the report registers
show (R81), with the statements AcceptanceTestsAnswerInOrder and PopRemovesTheHeadRecord. -/

namespace Sys2Proof.Machine

open Sys2Proof

/-! ## The acceptance tests against Table 3-2 -/

/-- The words that no opcode is written with (Table 3-2, test 1). -/
theorem opcodeOf_eq_none {v : Word} (h : v.toNat = 0 ∨ 8 < v.toNat) : opcodeOf v = none := by
  unfold opcodeOf
  split
  case h_9 => rfl
  all_goals omega

theorem RunState.admits_iff (r : RunState) (o : Opcode) :
    r.admits o = true ↔ r = .ready ∨ (r = .unprepared ∧ o = .prepare) := by
  cases r <;> simp [RunState.admits]

theorem State.admits_iff (s : State) (o : Opcode) : s.store.run.admits o = true ↔ ¬ s.NotAdmitted o := by
  rw [RunState.admits_iff, State.NotAdmitted, Classical.not_not]

theorem TagRec.owed_iff (r : TagRec) : r.owed = true ↔ r.st = .queued ∨ r.st = .active ∨ r.st = .aborting := by
  simp [TagRec.owed, or_assoc]

theorem Slot.blocksPrepare_iff (x : Slot) :
    x.blocksPrepare = true ↔ x.st = .dirty ∨ x.st = .writing ∨ x.st = .pinned ∨ x.st = .loading := by
  simp [Slot.blocksPrepare, Slot.inWork, or_assoc]

theorem Cmd.preparing_iff (c : Cmd) :
    c.preparing = true ↔ ∃ r ∈ c.tags, r.op = some .prepare ∧ (r.st = .queued ∨ r.st = .active) := by
  simp [Cmd.preparing]

theorem State.prepareBlocked_iff (s : State) : s.prepareBlocked = true ↔ s.PrepareBarred := by
  simp [State.prepareBlocked, State.PrepareBarred, TagRec.owed_iff, Slot.blocksPrepare_iff, Option.isSome_iff_ne_none,
    or_assoc]

theorem State.busy_iff (s : State) (o : Opcode) :
    (s.cmd.preparing || (o == .prepare && s.prepareBlocked)) = true ↔ s.TestBusy o := by
  simp [State.TestBusy, Cmd.preparing_iff, State.prepareBlocked_iff]

/-- Of the four values of the port select field, 3 alone names no port (R189). -/
theorem portSelOf_isSome (w : Word) : (portSelOf w).isSome = decide (fieldOf w 0 2 ≠ 3) := by
  have hlt : fieldOf w 0 2 < 4 := Nat.mod_lt _ (by decide)
  obtain h | h | h | h : fieldOf w 0 2 = 0 ∨ fieldOf w 0 2 = 1 ∨ fieldOf w 0 2 = 2 ∨ fieldOf w 0 2 = 3 := by omega
  all_goals rw [portSelOf, h]; rfl

theorem throughOf_eq (w : Word) : throughOf w = decide (fieldOf w 2 1 = 1) := by
  simp [throughOf, bitOf, Bool.beq_eq_decide_eq]

/-- The test of a block range, and when it fails (R57, test 4). -/
theorem rangeFits_iff (k n blocks : Nat) :
    (decide (1 ≤ k) && decide (k ≤ Config.slotCount) && decide (n + k ≤ blocks)) = true ↔
      ¬ (k = 0 ∨ 64 < k ∨ blocks < n + k) := by
  simp only [Config.slotCount, Bool.and_eq_true, decide_eq_true_eq]
  omega

/-- Each opcode is held to the parameters that it has (R57, test 4). -/
theorem State.parametersFit_iff (s : State) (o : Opcode) : s.parametersFit o = true ↔ ¬ s.TestBadParameter o := by
  have range := rangeFits_iff s.cmd.count.toNat s.cmd.lbaReg s.trans.blocks
  cases o with
  | read => simp [State.parametersFit, State.TestBadParameter, range, portSelOf_isSome, throughOf_eq, and_assoc]
  | write => simp [State.parametersFit, State.TestBadParameter, range, portSelOf_isSome]
  | verify => simp [State.parametersFit, State.TestBadParameter, range, throughOf_eq]
  | flush => simp [State.parametersFit, State.TestBadParameter, throughOf_eq]
  | relocate | releasePinned | clearSuspect | prepare =>
    simp [State.parametersFit, State.TestBadParameter, throughOf_eq, and_comm]

theorem Cmd.freeTag_eq_none (c : Cmd) : c.freeTag = none ↔ ∀ r ∈ c.tags, r.st ≠ .free := by
  simp [Cmd.freeTag]

theorem State.queueFull_iff (s : State) : s.queueFull = true ↔ 32 ≤ s.rep.recs.length + s.cmd.owedCount := by
  simp [State.queueFull]

/-! ## The answer of the tests, one rule for each reason -/

section
variable {s : State} {o : Opcode}

theorem State.tests_notReady (h2 : s.NotAdmitted o) : s.tests o = .error .notReady := by
  have barred : s.store.run.admits o = false := Bool.eq_false_iff.mpr fun k => (s.admits_iff o).mp k h2
  simp [State.tests, barred]

theorem State.tests_busy (h2 : ¬ s.NotAdmitted o) (h3 : s.TestBusy o) : s.tests o = .error .busy := by
  have admitted := (s.admits_iff o).mpr h2
  have busy := (s.busy_iff o).mpr h3
  rw [State.tests, admitted, busy]; rfl

theorem State.tests_badParameter (h2 : ¬ s.NotAdmitted o) (h3 : ¬ s.TestBusy o) (h4 : s.TestBadParameter o) :
    s.tests o = .error .badParameter := by
  have admitted := (s.admits_iff o).mpr h2
  have idle := Bool.eq_false_iff.mpr fun k => h3 ((s.busy_iff o).mp k)
  have unfit : s.parametersFit o = false := Bool.eq_false_iff.mpr fun k => (s.parametersFit_iff o).mp k h4
  rw [State.tests, admitted, idle, unfit]; rfl

/-- After the first four tests what is left is whether a record has room and a tag is FREE (R57, test 5). -/
theorem State.tests_queueFull (h2 : ¬ s.NotAdmitted o) (h3 : ¬ s.TestBusy o) (h4 : ¬ s.TestBadParameter o)
    (h5 : s.TestFull) : s.tests o = .error .queueFull := by
  have admitted := (s.admits_iff o).mpr h2
  have idle := Bool.eq_false_iff.mpr fun k => h3 ((s.busy_iff o).mp k)
  have fit := (s.parametersFit_iff o).mpr h4
  rw [State.tests, admitted, idle, fit]
  cases h5 with
  | inl noTag => simp [s.cmd.freeTag_eq_none.mpr noTag]
  | inr noRoom => simp [s.queueFull_iff.mpr noRoom]

end

/-! ## A write of COMMAND -/

/-- Every command that writes COMMAND is the submission of its word (R56). -/
theorem exec_commandWord {c : Instr} {v : Word} {s : State} (hc : commandWord c = some v) (hr : s.bus.resetLow = false) :
    exec c s = .next (s.writeCommand v) := by
  rw [← State.access_taken (·.writeCommand v) s hr]
  cases c <;> cases hc <;> rfl

theorem State.writeCommand_badOpcode {v : Word} (s : State) (h : opcodeOf v = none) :
    s.writeCommand v = s.refuse v .badOpcode := by
  simp [State.writeCommand, h]

/-- A test that fails refuses the submission for its reason, which changes COMMAND and SUBMIT alone (R56, R189). -/
theorem State.writeCommand_refused {v : Word} {o : Opcode} {why : Reason} {s : State} (ho : opcodeOf v = some o)
    (hw : s.tests o = .error why) : s.writeCommand v = s.refuse v why := by
  simp [State.writeCommand, ho, hw]

/-- Settles O6: a write of COMMAND refuses for the reason its tests answer, and what they answer follows Table 3-2. -/
theorem acceptanceTestsAnswerInOrder : Obligations.AcceptanceTestsAnswerInOrder := by
  unfold Obligations.AcceptanceTestsAnswerInOrder
  intro c v s hc hr
  rw [exec_commandWord hc hr]
  refine ⟨fun hv => ?_, fun o ho => ?_⟩
  · rw [s.writeCommand_badOpcode (opcodeOf_eq_none hv)]; rfl
  · have refused (why : Reason) (hw : s.tests o = .error why) :
        (.next (s.writeCommand v) : Host.Outcome State Fault Refusal)
          = .next { s with cmd := { s.cmd with command := v, submit := .refused why } } := by
      rw [State.writeCommand_refused ho hw]; rfl
    exact ⟨fun h2 => refused _ (State.tests_notReady h2),
      fun h2 h3 => refused _ (State.tests_busy h2 h3),
      fun h2 h3 h4 => refused _ (State.tests_badParameter h2 h3 h4),
      fun h2 h3 h4 h5 => refused _ (State.tests_queueFull h2 h3 h4 h5)⟩

/-! ## The words of a record against Tables 10-5 to 10-7 -/

theorem statusCode_eq (st : Status) : statusCode st = StatusNumber st := by cases st <;> rfl

theorem originCode_eq (o : Origin) : originCode o = OriginNumber o := by cases o <;> rfl

theorem causeCode_eq (c : Cause) : causeCode c = CauseNumber c := by cases c <;> rfl

/-- What a notice shows is its code, copy, verdict, aux word and LBA (Table 3-5). -/
theorem noticeShows_eq (n : Notice) :
    NoticeShows n = (n.code, n.copyVerdict.1, n.copyVerdict.2, n.aux, n.lba) := by
  cases n with
  | trip c => cases c <;> rfl
  | suspectAdded n c => rw [NoticeShows, ← causeCode_eq]; rfl
  | remapped n r o => rw [NoticeShows, ← originCode_eq]; rfl
  | tableCommitted g c => cases c <;> rfl
  | tableCommitFailed c => cases c <;> rfl
  | loadResult v c g => cases v <;> cases c <;> rfl
  | _ => rfl

/-- REPORT_0 of a completion: kind 1, the tag from bit 2, the status code from bit 8 (Tables 10-5 and 10-6). -/
theorem Report.word0_completion (t : Tag) (st : Status) (d : Nat) (n : Lba) :
    (Report.completion t st d n).word0 = BitVec.ofNat 16 (1 + 4 * (t % 8) + 256 * StatusNumber st) := by
  simp only [Report.word0, packWord, List.foldr, statusCode_eq]
  congr 1
  omega

/-- REPORT_0 of a notice: kind 2, the code from bit 8, the copy in bit 12, the verdict from bit 13 (Table 10-5). -/
theorem Report.word0_notice (n : Notice) :
    (Report.notice n).word0
      = BitVec.ofNat 16 (2 + 256 * n.code + 4096 * n.copyVerdict.1 + 8192 * n.copyVerdict.2) := by
  simp only [Report.word0, packWord, List.foldr]
  congr 1
  omega

/-! ## The registers of the report queue (R81, R190) -/

theorem State.regValue_reportCtrl (s : State) : s.regValue 13 = BitVec.ofNat 16 s.rep.recs.length := rfl

theorem State.regValue_report_empty {s : State} (h : s.rep.recs = []) :
    s.regValue 9 = 0 ∧ s.regValue 10 = 0 ∧ s.regValue 11 = 0 ∧ s.regValue 12 = 0 := by
  simp [State.regValue, Rep.headWord, h]

theorem State.regValue_report_head {s : State} {x : Report} {l : List Report} (h : s.rep.recs = x :: l) :
    s.regValue 9 = x.word0 ∧ s.regValue 10 = x.word1 ∧ s.regValue 11 = x.word2 ∧ s.regValue 12 = x.word3 := by
  simp [State.regValue, Rep.headWord, h]

/-! ## A pop (R81) -/

theorem State.pop_empty {s : State} (h : s.rep.recs = []) : s.pop = s := by simp [State.pop, h]

theorem State.pop_head {s : State} {x : Report} {l : List Report} (h : s.rep.recs = x :: l) :
    s.pop = { s with rep := { s.rep with recs := l }, cmd := s.cmd.popped x } := by
  simp [State.pop, h]

theorem exec_reportPop (v : Word) {s : State} (hr : s.bus.resetLow = false) : exec (.reportPop v) s = .next s.pop := by
  rw [← State.access_taken State.pop s hr]; rfl

/-- Settles O10: a pop takes the head record off, and the registers read the head field by field. -/
theorem popRemovesTheHeadRecord : Obligations.PopRemovesTheHeadRecord := by
  unfold Obligations.PopRemovesTheHeadRecord
  intro v s hr
  rw [exec_reportPop v hr]
  refine ⟨fun h => ?_, fun n l h => ?_, fun t st d n l h => ?_, s.regValue_reportCtrl,
    State.regValue_report_empty, fun x l => State.regValue_report_head, fun t st d n l h => ?_,
    fun n l code copy verdict aux m h shows => ?_⟩
  · rw [State.pop_empty h]
  · rw [State.pop_head h]; rfl
  · rw [State.pop_head h]; rfl
  · obtain ⟨w0, w1, w2, w3⟩ := State.regValue_report_head h
    exact ⟨w0.trans (Report.word0_completion t st d n), w1, w2, w3⟩
  · obtain ⟨w0, w1, w2, w3⟩ := State.regValue_report_head h
    rw [noticeShows_eq] at shows
    obtain ⟨rfl, rfl, rfl, rfl, rfl⟩ : n.code = code ∧ n.copyVerdict.1 = copy ∧ n.copyVerdict.2 = verdict ∧
        n.aux = aux ∧ n.lba = m := by simpa using shows
    exact ⟨w0.trans (Report.word0_notice n), w1, w2, w3⟩

end Sys2Proof.Machine

/-! The data ports: the reads and writes of DATA that move no word (R93), with the statement EmptyAccessMovesNothing. -/

namespace Sys2Proof.Machine

open Sys2Proof

/-! ## DATA as a command -/

theorem exec_dataRead (p : PortId) {s : State} (hr : s.bus.resetLow = false) :
    exec (.dataRead p) s = .next (s.readData p) := by
  rw [← State.access_taken (·.readData p) s hr]; rfl

theorem exec_dataWrite (p : PortId) (v : Word) {s : State} (hr : s.bus.resetLow = false) :
    exec (.dataWrite p v) s = .next (s.writeData p v) := by
  rw [← State.access_taken (·.writeData p v) s hr]; rfl

/-! ## The empty accesses, one rule for each reason (R93) -/

section
variable {p : PortId} {v : Word} {b : Binding} {s : State}

theorem State.readData_unbound (hb : (s.ports.get p).bound = none) :
    s.readData p = (s.emptyAccess p).drive 0 := by
  simp [State.readData, hb]

theorem State.readData_ofWrite (hb : (s.ports.get p).bound = some b) (hd : b.dir = .write) :
    s.readData p = (s.emptyAccess p).drive 0 := by
  simp [State.readData, hb, hd]

/-- The block that the port is at has no slot from which its words can be read. -/
theorem State.readData_undeliverable (hb : (s.ports.get p).bound = some b) (hn : s.deliverable b = none) :
    s.readData p = (s.emptyAccess p).drive 0 := by
  simp [State.readData, hb, hn]

theorem State.writeData_unbound (hb : (s.ports.get p).bound = none) : s.writeData p v = s.emptyAccess p := by
  simp [State.writeData, hb]

theorem State.writeData_ofRead (hb : (s.ports.get p).bound = some b) (hd : b.dir = .read) :
    s.writeData p v = s.emptyAccess p := by
  simp [State.writeData, hb, hd]

/-- The command of the port has no FILLING slot that takes a word, or two blocks of it are still owed. -/
theorem State.writeData_unfillable (hb : (s.ports.get p).bound = some b) (hn : s.fillable b = none) :
    s.writeData p v = s.emptyAccess p := by
  simp [State.writeData, hb, hn]

end

/-- Settles O15: each reason for which DATA moves no word ends in the empty access, and a read then drives 0000h. -/
theorem emptyAccessMovesNothing : Obligations.EmptyAccessMovesNothing := by
  unfold Obligations.EmptyAccessMovesNothing
  intro p v s hr
  rw [exec_dataRead p hr, exec_dataWrite p v hr]
  constructor
  · intro why
    have empty : s.readData p = (s.emptyAccess p).drive 0 := by
      obtain unbound | ⟨b, bound, ofWrite | ⟨-, undeliverable⟩⟩ := why
      · exact State.readData_unbound unbound
      · exact State.readData_ofWrite bound ofWrite
      · exact State.readData_undeliverable bound undeliverable
    rw [empty]; rfl
  · intro why
    have empty : s.writeData p v = s.emptyAccess p := by
      obtain unbound | ⟨b, bound, ofRead | ⟨-, unfillable⟩⟩ := why
      · exact State.writeData_unbound unbound
      · exact State.writeData_ofRead bound ofRead
      · exact State.writeData_unfillable bound unfillable
    rw [empty]; rfl

end Sys2Proof.Machine

/-! The interrupt line: what the attention of a port rests on (R88, R89, R96), with the statement
InterruptFollowsItsConditions. -/

namespace Sys2Proof.Machine

open Sys2Proof

/-! ## Attention of a port (R96) -/

/-- A READ port moves words of a deliverable block, a WRITE port words into its FILLING slot (R88, R89). -/
theorem State.slotAt_eq_some_iff {s : State} {b : Binding} {i : SlotIx} :
    s.slotAt b = some i ↔
      (b.dir = .read ∧ s.deliverable b = some i) ∨ (b.dir = .write ∧ s.fillable b = some i) := by
  unfold State.slotAt
  cases b.dir <;> simp

/-- READY is a binding with a slot to move words of (R84). -/
theorem State.portState_eq_ready_iff {s : State} {p : Port} :
    s.portState p = 2 ↔ ∃ b, p.bound = some b ∧ ∃ i, s.slotAt b = some i := by
  unfold State.portState
  cases p.bound with
  | none => simp
  | some b => simp [Option.isSome_iff_exists]

theorem State.attention_iff {s : State} {p : Port} :
    s.attention p = true ↔ ∃ b i, p.bound = some b ∧ b.word = 0 ∧ s.slotAt b = some i := by
  rw [State.attention, Bool.and_eq_true, beq_iff_eq, State.portState_eq_ready_iff]
  constructor
  · rintro ⟨⟨b, bound, i, slot⟩, word⟩
    exact ⟨b, i, bound, by simpa [bound] using word, slot⟩
  · rintro ⟨b, i, bound, word, slot⟩
    exact ⟨⟨b, bound, i, slot⟩, by simp [bound, word]⟩

/-! ## INT_N (R194) -/

/-- The two ports of the part are the ports that an id names. -/
theorem Ports.p0_or_p1_iff {P : Port → Prop} {ps : Ports} : P ps.p0 ∨ P ps.p1 ↔ ∃ p, P (ps.get p) := by
  constructor
  · rintro (at0 | at1)
    · exact ⟨.p0, at0⟩
    · exact ⟨.p1, at1⟩
  · rintro ⟨p, at_p⟩
    cases p with
    | p0 => exact .inl at_p
    | p1 => exact .inr at_p

theorem State.intAsserted_iff {s : State} :
    s.intAsserted = true ↔
      s.bus.resetLow = false ∧ ((s.bus.reportIe = true ∧ s.rep.recs ≠ [])
        ∨ (s.bus.portIe = true ∧ ∃ p, s.attention (s.ports.get p) = true)) := by
  rw [← Ports.p0_or_p1_iff (P := fun p => s.attention p = true)]
  simp [State.intAsserted]

/-- Settles O19: of the two conditions of INT_N, the attention of a port is a slot to move words of at word index 0. -/
theorem interruptFollowsItsConditions : Obligations.InterruptFollowsItsConditions := by
  unfold Obligations.InterruptFollowsItsConditions
  intro s
  simp only [State.intAsserted_iff, State.attention_iff, State.slotAt_eq_some_iff]

end Sys2Proof.Machine
